-- ==== Sys2Proof/Word.lean ====
section
/-! DEFINITION. The word types of the HX604 (00_scope 0.6 "Numbers", "Sequence numbers", "Identifiers
and addresses") and the fixed-size tables that the other files index. -/

namespace Sys2Proof

/-- One byte of a frame or of a link block. -/
abbrev Byte := BitVec 8

/-- A frame's bytes, from the destination address to the end of the payload, without its check. -/
abbrev Frame := List Byte

/-- A 12-bit sequence number; arithmetic wraps modulo 4096 (0.6). -/
abbrev Seq := BitVec 12

/-- A partnership epoch (section 4). -/
abbrev Epoch := BitVec 32

/-- A 48-bit Ethernet address or unit identifier (0.6). -/
abbrev Address := BitVec 48

/-- The manager's tag of a request (0.7). -/
abbrev Tag := BitVec 16

/-- A counter of section 10: 32 bits, wrapping from 4294967295 to 0 (0.6). -/
abbrev Counter := BitVec 32

/-- A flow number, 0 to 63 (0.6). -/
abbrev FlowId := Fin 64

/-- A link or wire class, 0 to 3 (0.6). -/
abbrev PortClass := Fin 4

/-- The item of a fixed table at an index. -/
def readAt {α : Type} {n : Nat} (t : Vector α n) (i : Fin n) : α := t[i.val]

/-- A fixed table with one item replaced. -/
def writeAt {α : Type} {n : Nat} (t : Vector α n) (i : Fin n) (x : α) : Vector α n :=
  t.set i.val x i.isLt

/-- The fixed table whose item at each index a rule gives. -/
def tabulate {α : Type} {n : Nat} (g : Fin n → α) : Vector α n := Vector.ofFn g

end Sys2Proof
end

