-- ==== Sys2Proof/Syntax.lean ====
section
/-! DEFINITION. The commands of the HX604 (one constructor per row of spec/opcode_table.json), the names of
the manual that are alternatives (0.6 "Names", Table 11.10), and the link blocks of section 11. -/

namespace Sys2Proof

/-! ## The commands -/

/-- One happening of spec/opcode_table.json. A row whose happening is about something the part already
holds (a routed block, a grant in transit, the request at the head of the queue, a frame in
transmission) has no operand: the state names it. -/
inductive Instr where
  /-- R48: a low level on the reset input. -/
  | powerOnReset
  /-- R103: the reception of a frame ends. The bytes received end in the 4 bytes of the frame check
  sequence; the mark says that the media interface signalled a receive error. -/
  | wireFrameReception (received : List Byte) (receiveError : Bool)
  /-- R143: the transceiver delivers a block, with its CRC, marked good or received in error. -/
  | linkBlockDelivery (received : List Byte) (receivedInError : Bool)
  /-- R76: the HELLO at the head of the blocks routed to the partnership controller reaches it. -/
  | helloReceived
  /-- R82: a KEEPALIVE reaches the partnership controller. -/
  | keepaliveReceived
  /-- R87: a LEAVE reaches the partnership controller. -/
  | leaveReceived
  /-- R54: an OPEN reaches the flow it names. -/
  | openReceived
  /-- R56: an OPEN_ACK reaches the flow it names. -/
  | openAckReceived
  /-- R60: a CLOSE reaches the flow it names. -/
  | closeReceived
  /-- R61: a CLOSE_ACK reaches the flow it names. -/
  | closeAckReceived
  /-- R63: an ABORT reaches the flow it names. -/
  | abortReceived
  /-- R28: a DATA reaches the flow it names. -/
  | dataReceived
  /-- R38: an ADVANCE reaches the flow it names. -/
  | advanceReceived
  /-- R11: a STATUS reaches the flow it names. -/
  | statusReceived
  /-- R114: a BULK block reaches the bulk path. -/
  | bulkReceived
  /-- R133: the transceiver signals that it can take a block. -/
  | slotSignalled
  /-- R133: the transceiver withdraws its signal. -/
  | slotWithdrawn
  /-- R8: the data grant in transit reaches its flow. -/
  | dataGrant
  /-- R43: the STATUS grant in transit reaches its flow. -/
  | statusGrant
  /-- R50: the lifecycle grant in transit reaches its flow. -/
  | lifecycleGrant
  /-- R74: the partnership grant in transit reaches the partnership controller. -/
  | partnershipGrant
  /-- R113: the bulk grant in transit reaches the bulk category. -/
  | bulkGrant
  /-- R140: the transmission of the block on the link ends. -/
  | linkTransmissionEnd
  /-- R146: the transmission of the frame on the wire ends. -/
  | wireTransmissionEnd
  /-- R145: the media interface reports the wired link up. -/
  | wiredLinkUp
  /-- R145: the media interface reports the wired link down. -/
  | wiredLinkDown
  /-- R18: the retransmission timer of an OPEN or DRAINING flow runs out. -/
  | retransmissionTimerExpiry (flow : FlowId)
  /-- R59: the retransmission timer of a CLOSING flow runs out. -/
  | closeSeriesExpiry (flow : FlowId)
  /-- R53: the open timer of a flow runs out. -/
  | openTimerExpiry (flow : FlowId)
  /-- R41: the ack delay timer of a flow runs out. -/
  | ackDelayTimerExpiry (flow : FlowId)
  /-- R84: the join timer runs out. -/
  | joinTimerExpiry
  /-- R75: the hello timer runs out. -/
  | helloTimerExpiry
  /-- R81: the silence timer runs out. -/
  | silenceTimerExpiry
  /-- R82: the keepalive timer runs out. -/
  | keepaliveTimerExpiry
  /-- R83: the hold timer runs out. -/
  | holdTimerExpiry
  /-- R153: the lease timer runs out. -/
  | leaseTimerExpiry
  /-- R160: the engine executes the IDENTIFY at the head of the request queue. -/
  | identify
  /-- R154: the engine executes the BIND at the head of the request queue. -/
  | bind
  /-- R155: the engine executes the UNBIND at the head of the request queue. -/
  | unbind
  /-- R122: the engine executes the READ_TABLE at the head of the request queue. -/
  | readTable
  /-- R124: the engine executes the WRITE_TABLE at the head of the request queue. -/
  | writeTable
  /-- R126: the engine executes the COPY_BANK at the head of the request queue. -/
  | copyBank
  /-- R130: the engine executes the COMMIT at the head of the request queue. -/
  | commit
  /-- R52: the engine executes the FLOW_OPEN at the head of the request queue. -/
  | flowOpen
  /-- R57: the engine executes the FLOW_CLOSE at the head of the request queue. -/
  | flowClose
  /-- R62: the engine executes the FLOW_ABORT at the head of the request queue. -/
  | flowAbort
  /-- R64: the engine executes the FLOW_RESET at the head of the request queue. -/
  | flowReset
  /-- R161: the engine executes the FLOW_STATUS at the head of the request queue. -/
  | flowStatus
  /-- R73: the engine executes the LINK_JOIN at the head of the request queue. -/
  | linkJoin
  /-- R86: the engine executes the LINK_LEAVE at the head of the request queue. -/
  | linkLeave
  /-- R162: the engine executes the LINK_STATUS at the head of the request queue. -/
  | linkStatus
  /-- R178: the engine executes the READ_COUNTERS at the head of the request queue. -/
  | readCounters
  /-- R163: the engine executes the SET_PARAMS at the head of the request queue. -/
  | setParams
  /-- R164: the engine executes the READ_PARAMS at the head of the request queue. -/
  | readParams
  /-- R175: the engine executes the SET_NOTICES at the head of the request queue. -/
  | setNotices
  /-- R165: the engine executes the RESTART at the head of the request queue. -/
  | restart
  /-- R156: the engine executes a request at the head of the queue whose code Table 9.2 lacks. -/
  | unknownRequest
  deriving DecidableEq, Repr

/-! ## Names of the manual -/

/-- Table 3.1. -/
inductive FlowState where
  | closed | opening | opened | draining | closing | failed
  deriving DecidableEq, Repr

/-- Table 4.1. -/
inductive LinkState where
  | silent | joining | partnered | lost
  deriving DecidableEq, Repr

/-- Table 3.2, drain origin. -/
inductive DrainOrigin where
  | localEnd | peerEnd
  deriving DecidableEq, Repr

/-- Table 3.2, failure cause. -/
inductive FailureCause where
  | retryExhausted | peerAbort | partnerRestart | partnerLost | partnerLeft
  deriving DecidableEq, Repr

/-- Table 3.3, with the codes of Table 11.10. -/
inductive FlowCause where
  | request | peerOpen | openAccepted | openRefused | openTimeout | peerClose | drained | closeDone
  | closeUnconfirmed | retryExhausted | peerAbort | partnerRestart | partnerLeft | partnerLost
  | localLeave
  deriving DecidableEq, Repr

/-- Table 4.6. -/
inductive LinkCause where
  | request | handshake | silence | regained | partnerRestart | holdExpired | joinTimeout | partnerLeft
  deriving DecidableEq, Repr

/-- Table 7.2, order. -/
inductive OrderMode where
  | inOrder | arrival
  deriving DecidableEq, Repr

/-- Table 7.2, mode. -/
inductive ProfileMode where
  | disabled | reliable
  deriving DecidableEq, Repr

/-- Table 7.2, exhaustion policy. -/
inductive ExhaustionPolicy where
  | fail | skip
  deriving DecidableEq, Repr

/-- The verdict of an OPEN_ACK (Table 11.10). -/
inductive Verdict where
  | accept | notReliable | profileMismatch | noBuffers
  deriving DecidableEq, Repr

/-- Table 9.1: the route by which a request came and by which it is answered. -/
inductive Origin where
  | wire | link
  deriving DecidableEq, Repr

/-- The two banks (Table 7.1). -/
inductive BankId where
  | a | b
  deriving DecidableEq, Repr

/-- Table 9.3. -/
inductive Status where
  | ok | accepted | busy | notBound | heldByOther | badRequest | badEntry | wrongState | notReliable
  | noPartner | noBuffers | staleGeneration | structuralChange | danglingFlow | inProgress
  deriving DecidableEq, Repr

/-- R158: the outcome of a deferred request. -/
inductive Completion where
  | done | refused | timeout | partnerLost | aborted | unconfirmed
  deriving DecidableEq, Repr

/-- The detail of a COMPLETION: a refusal reason or a failure cause (Table 10.3, Table 11.10). -/
inductive Detail where
  | notReliable | profileMismatch | noBuffers | peerAbort | retryExhausted | partnerRestart
  | partnerLost | partnerLeft
  deriving DecidableEq, Repr

/-- R158: the requests that a flow may hold deferred (Table 3.2). -/
inductive DeferredCode where
  | flowOpen | flowClose
  deriving DecidableEq, Repr

/-! ## Link blocks (Table 11.2) -/

/-- The kind of a link block with its payload (Table 11.2). An optional field is absent when its flag
bit is clear. -/
inductive BlockBody where
  | hello (unit : Address) (seen : Option Epoch)
  | keepalive
  | leave
  | openFlow (flow : FlowId) (window : Nat) (order : OrderMode)
  | openAck (flow : FlowId) (verdict : Verdict)
  | close (flow : FlowId)
  | closeAck (flow : FlowId)
  | abort (flow : FlowId)
  | data (flow : FlowId) (seq : Seq) (frame : Frame)
  | status (flow : FlowId) (cumulative : Seq) (map : BitVec 64) (high : Option Seq)
  | advance (flow : FlowId) (seq : Seq)
  | bulk (cls : PortClass) (frame : Frame)
  deriving DecidableEq, Repr

/-- A link block: the epoch of its common header (Table 11.1) and its kind with payload. -/
structure LinkBlock where
  epoch : Epoch
  body : BlockBody
  deriving DecidableEq, Repr

end Sys2Proof
end

