-- ==== Sys2Proof/Config.lean ====
section
/-! DEFINITION. What the manual leaves open: free values with no body, which no proof can evaluate.
Each is named in the assumption log. -/

namespace Sys2Proof

/-- The random source's yield at the n-th draw of an own epoch (R72): any 32-bit value. Log entry 1. -/
opaque Config.drawnEpoch : Nat → Epoch

/-- Whether a lease remaining of a number of milliseconds that is no whole number of seconds is
reported rounded up (Table 11.6 gives the field in seconds and no rounding). Log entry 2. -/
opaque Config.leaseRoundsUp : Nat → Bool

/-- The lease remaining bytes of an IDENTIFY response while UNBOUND (Table 11.6 states no value).
Log entry 3. -/
opaque Config.leaseWhileUnbound : BitVec 16

/-- The flow byte of a READ_COUNTERS response for scope DEVICE, given the flow byte of the request
(Table 11.6 carries the byte, no rule states its value for DEVICE). Log entry 4. -/
opaque Config.deviceScopeFlowByte : Byte → Byte

end Sys2Proof
end

