-- ==== Sys2Proof/Machine/State.lean ====
section
/-! DEFINITION. The state of the HX604: every field that a state table of the manual gives a block, as plain
data, and its value after power-on reset. -/

namespace Sys2Proof.Machine

/-! ## Timers and lifecycle (sections 1 to 3) -/

/-- 0.6 "Times and timers": stopped, or running with a remaining time in milliseconds. A timer of a
suspended flow is frozen: it stays `running` with its remaining time kept (R19, R41). -/
inductive Timer where
  | stopped
  | running (remaining : Nat)
  deriving DecidableEq, Repr

/-- Table 1.2, advance state: an ADVANCE awaits acknowledgement, or is to be sent again. -/
inductive AdvanceState where
  | sent | due
  deriving DecidableEq, Repr

/-- Table 1.2, condition, with the buffer's frame where the condition has a buffer (R5). -/
inductive EntryCondition where
  | outstanding (frame : Frame)
  | sacked (frame : Frame)
  | pendingRetx (frame : Frame)
  | skipped (advance : AdvanceState)
  deriving DecidableEq, Repr

/-- Table 1.2: a transmit window entry. -/
structure WindowEntry where
  seq : Seq
  condition : EntryCondition
  transmissions : Nat
  deriving DecidableEq, Repr

/-- Table 2.2, kind, with the buffer's frame where the kind has a buffer. -/
inductive MemberKind where
  | frame (frame : Frame)
  | skip
  | delivered
  deriving DecidableEq, Repr

/-- Table 2.2: a reorder set member. -/
structure Member where
  seq : Seq
  kind : MemberKind
  deriving DecidableEq, Repr

/-- Table 3.2, pending lifecycle block. The fields of a block apart from the flow number are fixed when
it becomes pending (3.2). -/
inductive LifecycleBlock where
  | openFlow (window : Nat) (order : OrderMode)
  | openAck (verdict : Verdict)
  | close
  | closeAck
  | abort
  deriving DecidableEq, Repr

/-- Table 3.2, deferred request. -/
structure Deferred where
  code : DeferredCode
  tag : Tag
  deriving DecidableEq, Repr

/-- A flow context: Tables 1.1, 2.1 and 3.2, less the held count and the reservation, which the pool
keeps (Table 5.1). -/
structure Flow where
  state : FlowState
  suspended : Bool
  sendQueue : List Frame
  lower : Seq
  next : Seq
  window : List WindowEntry
  txOrder : List Seq
  rto : Nat
  retxTimer : Timer
  expected : Seq
  reorder : List Member
  dataSince : Nat
  ackTimer : Timer
  statusPending : Bool
  drainOrigin : Option DrainOrigin
  failureCause : Option FailureCause
  attempts : Nat
  openTimer : Timer
  pendingBlock : Option LifecycleBlock
  deferred : Option Deferred
  deriving DecidableEq, Repr

/-- The initial values of Tables 1.1, 2.1 and 3.2, with the current RTO that the table gives for the
occasion (100 at power-on; the RTO base of the active profile at a RESTART). -/
def Flow.initial (rto : Nat) : Flow where
  state := .closed
  suspended := false
  sendQueue := []
  lower := 0
  next := 0
  window := []
  txOrder := []
  rto := rto
  retxTimer := .stopped
  expected := 0
  reorder := []
  dataSince := 0
  ackTimer := .stopped
  statusPending := false
  drainOrigin := none
  failureCause := none
  attempts := 0
  openTimer := .stopped
  pendingBlock := none
  deferred := none

/-! ## The buffer pool (section 5) -/

/-- 5.2: the account that a buffer is charged to. -/
inductive Account where
  | flow (f : FlowId)
  | bulk
  deriving DecidableEq, Repr

/-- Table 5.1. -/
structure Pool where
  free : Nat
  held : Vector Nat 64
  reservation : Vector Nat 64
  bulkHeld : Nat
  lowArmed : Bool
  deriving DecidableEq, Repr

def Pool.initial : Pool where
  free := 512
  held := Vector.replicate 64 0
  reservation := Vector.replicate 64 0
  bulkHeld := 0
  lowArmed := true

/-! ## The wire port (section 8.6) -/

/-- A frame of a class queue with the account that its buffer is charged to (Table 8.2). -/
structure WireItem where
  account : Account
  frame : Frame
  deriving DecidableEq, Repr

/-- A management frame held in the engine's own storage, with the mark of the response of the RESTART
being executed, whose leaving the engine awaits (R166). -/
structure ReplyItem where
  frame : Frame
  restartResponse : Bool
  deriving DecidableEq, Repr

/-- Whose storage the frame in transmission on the wire occupies (R146). A frame begun before a RESTART
was applied is of no owner: its end releases nothing and changes no queue (R147). -/
inductive WireOwner where
  | management
  | account (a : Account)
  | abandoned
  deriving DecidableEq, Repr

/-- Table 8.2, wire transmitter, with the bytes it sends (the frame and its check, R145). -/
inductive WireTransmitter where
  | idle
  | sending (owner : WireOwner) (bytes : List Byte)
  deriving DecidableEq, Repr

/-- Table 8.2, with the media interface's report of the wired link (R145). The management frame in
transmission is the head of the management egress until its transmission ends. -/
structure WirePort where
  managementEgress : List ReplyItem
  classQueues : Vector (List WireItem) 4
  transmitter : WireTransmitter
  linkUp : Bool
  deriving DecidableEq, Repr

def WirePort.initial : WirePort where
  managementEgress := []
  classQueues := Vector.replicate 4 []
  transmitter := .idle
  linkUp := false

/-! ## The link port (sections 6.5 and 8) -/

/-- Table 6.3: an item of the link bulk queue. -/
structure BulkItem where
  cls : PortClass
  frame : Frame
  deriving DecidableEq, Repr

/-- What the end of the transmission of the block on the link does (R140): it releases a bulk buffer, it
removes the head of the link reply queue, it ends the wait of a RESTART for its LEAVE, or nothing. -/
inductive LinkOwner where
  | plain
  | bulkBuffer
  | linkReply
  | restartLeave
  deriving DecidableEq, Repr

/-- Table 8.1, transmitter, with the bytes of the block it sends (R140). -/
inductive LinkTransmitter where
  | idle
  | slotOpen
  | sending (owner : LinkOwner) (bytes : List Byte)
  deriving DecidableEq, Repr

/-- R139: a grant that the scheduler has sent and that has not reached its supplier. A data grant
carries the link class in which the selection found its flow (R137). -/
inductive Grant where
  | partnership
  | lifecycle (f : FlowId)
  | status (f : FlowId)
  | data (f : FlowId) (cls : PortClass)
  | bulk
  deriving DecidableEq, Repr

/-- Table 8.1 and Table 6.3, with the transceiver's signal (R133), the grant in transit (R139) and the
blocks that dispatch has routed and that have not reached their destinations, in the order of routing,
one list for each destination of R144. -/
structure LinkPort where
  transmitter : LinkTransmitter
  slotSignal : Bool
  grant : Option Grant
  lifecycleOrder : List FlowId
  statusPosition : FlowId
  dataPositions : Vector FlowId 4
  bulkCredit : Nat
  bulkQueue : List BulkItem
  toPartnership : List LinkBlock
  toFlows : List LinkBlock
  toBulk : List LinkBlock
  deriving DecidableEq, Repr

def LinkPort.initial : LinkPort where
  transmitter := .idle
  slotSignal := false
  grant := none
  lifecycleOrder := []
  statusPosition := 0
  dataPositions := Vector.replicate 4 0
  bulkCredit := 0
  bulkQueue := []
  toPartnership := []
  toFlows := []
  toBulk := []

/-! ## The partnership (section 4) -/

/-- Table 4.2. -/
structure Partnership where
  state : LinkState
  ownEpoch : Option Epoch
  partnerEpoch : Option Epoch
  partnerUnit : Option Address
  joinTimer : Timer
  helloTimer : Timer
  silenceTimer : Timer
  keepaliveTimer : Timer
  holdTimer : Timer
  helloPending : Bool
  keepalivePending : Bool
  leavePending : Option Epoch
  repeatMark : Bool
  deferredJoin : Option Tag
  deriving DecidableEq, Repr

def Partnership.initial : Partnership where
  state := .silent
  ownEpoch := none
  partnerEpoch := none
  partnerUnit := none
  joinTimer := .stopped
  helloTimer := .stopped
  silenceTimer := .stopped
  keepaliveTimer := .stopped
  holdTimer := .stopped
  helloPending := false
  keepalivePending := false
  leavePending := none
  repeatMark := false
  deferredJoin := none

/-! ## The table store (sections 6.3 and 7) -/

/-- Table 6.1, VLAN. -/
inductive VlanMatch where
  | untagged
  | id (vid : BitVec 12)
  deriving DecidableEq, Repr

/-- Table 6.1, payload pattern: the offset and, for each byte tested, its value and mask. -/
structure PayloadPattern where
  offset : Nat
  bytes : List (Byte × Byte)
  deriving DecidableEq, Repr

/-- Table 6.1, fallback; also the default action of a bank (Table 7.1), which has the same choices. -/
inductive PlainAction where
  | discard
  | bulk (cls : PortClass)
  deriving DecidableEq, Repr

/-- Table 6.1, action. -/
inductive EntryAction where
  | discard
  | bulk (cls : PortClass)
  | flow (f : FlowId)
  deriving DecidableEq, Repr

/-- Table 6.1. -/
structure ClassEntry where
  valid : Bool
  destination : Option Address
  source : Option Address
  etherType : Option (BitVec 16)
  vlan : Option VlanMatch
  priority : Option (BitVec 3 × BitVec 3)
  pattern : Option PayloadPattern
  action : EntryAction
  fallback : Option PlainAction
  deriving DecidableEq, Repr

/-- 7.1: an invalid entry at power-on. -/
def ClassEntry.initial : ClassEntry where
  valid := false
  destination := none
  source := none
  etherType := none
  vlan := none
  priority := none
  pattern := none
  action := .discard
  fallback := none

/-- Table 7.2. -/
structure Profile where
  mode : ProfileMode
  window : Nat
  order : OrderMode
  reserve : Nat
  cap : Nat
  retryLimit : Nat
  rtoBase : Nat
  backoffLimit : Nat
  exhaustion : ExhaustionPolicy
  ackEvery : Nat
  ackDelay : Nat
  linkClass : PortClass
  wireClass : PortClass
  deriving DecidableEq, Repr

/-- Table 7.2, defaults. -/
def Profile.initial : Profile where
  mode := .disabled
  window := 16
  order := .inOrder
  reserve := 0
  cap := 32
  retryLimit := 7
  rtoBase := 100
  backoffLimit := 4
  exhaustion := .fail
  ackEvery := 4
  ackDelay := 10
  linkClass := 0
  wireClass := 0

/-- Table 7.1: the contents of a bank. -/
structure Bank where
  entries : Vector ClassEntry 128
  profiles : Vector Profile 64
  default : PlainAction
  deriving DecidableEq, Repr

def Bank.initial : Bank where
  entries := Vector.replicate 128 ClassEntry.initial
  profiles := Vector.replicate 64 Profile.initial
  default := .bulk 0

/-- Table 7.1. -/
structure TableStore where
  bankA : Bank
  bankB : Bank
  active : BankId
  generation : BitVec 32
  deriving DecidableEq, Repr

def TableStore.initial : TableStore where
  bankA := Bank.initial
  bankB := Bank.initial
  active := .a
  generation := 0

/-! ## The management engine (sections 9 and 10) -/

/-- Table 9.1, engine state. -/
inductive EngineState where
  | ready
  | awaitResponse
  | awaitLeave
  deriving DecidableEq, Repr

/-- Table 9.1, binding: the manager's address, the origin, the lease duration in seconds and the
remaining time of the lease timer in milliseconds, which runs while the binding is BOUND (R153). -/
inductive Binding where
  | unbound
  | bound (manager : Address) (origin : Origin) (lease : Nat) (remaining : Nat)
  deriving DecidableEq, Repr

/-- Table 9.1: a queued request. -/
structure Request where
  source : Address
  origin : Origin
  tag : Tag
  code : Byte
  body : List Byte
  deriving DecidableEq, Repr

/-- Table 9.1: an entry of the completed-request record. -/
structure RecordEntry where
  source : Address
  tag : Tag
  response : Frame
  deriving DecidableEq, Repr

/-- R173: the request that a held notice is marked with, by its source and tag. -/
structure RequestMark where
  source : Address
  tag : Tag
  deriving DecidableEq, Repr

/-- Table 9.1, less the device parameters. `executing` names the request in execution, and is absent
between happenings (R156: a request is executed whole as one happening). -/
structure Engine where
  state : EngineState
  binding : Binding
  requests : List Request
  record : List RecordEntry
  linkReply : List ReplyItem
  executing : Option RequestMark
  deriving DecidableEq, Repr

def Engine.initial : Engine where
  state := .ready
  binding := .unbound
  requests := []
  record := []
  linkReply := []
  executing := none

/-- Table 9.4. -/
structure Params where
  stationAddress : Address
  silenceLimit : Nat
  keepaliveInterval : Nat
  holdLimit : Nat
  joinLimit : Nat
  expectedPartner : Option Address
  bulkCap : Nat
  poolLow : Nat
  deriving DecidableEq, Repr

/-- Table 9.4, power-on values: the station address is the unit identifier. -/
def Params.initial (unitId : Address) : Params where
  stationAddress := unitId
  silenceLimit := 1000
  keepaliveInterval := 250
  holdLimit := 30
  joinLimit := 60
  expectedPartner := none
  bulkCap := 32
  poolLow := 32

/-- Table 10.3. -/
inductive NoticeContent where
  | flowState (f : FlowId) (old new : FlowState) (cause : FlowCause)
  | linkState (old new : LinkState) (cause : LinkCause)
  | completion (tag : Tag) (code : Byte) (outcome : Completion) (detail : Option Detail)
  | poolLow (sharedFree : Nat)
  deriving DecidableEq, Repr

/-- Table 10.2. Transitions are absent for COMPLETION. -/
structure Notice where
  content : NoticeContent
  transitions : Option Nat
  held : Option RequestMark
  deriving DecidableEq, Repr

/-- Table 10.1. -/
structure Notices where
  queue : List Notice
  overrun : Bool
  flowStateEnabled : Bool
  linkStateEnabled : Bool
  poolLowEnabled : Bool
  deriving DecidableEq, Repr

def Notices.initial : Notices where
  queue := []
  overrun := false
  flowStateEnabled := true
  linkStateEnabled := true
  poolLowEnabled := true

/-- Table 10.4. -/
structure FlowCounters where
  txAccepted : Counter
  txRefused : Counter
  txDiverted : Counter
  dataSent : Counter
  dataRetransmitted : Counter
  skipped : Counter
  rxDelivered : Counter
  rxDuplicate : Counter
  rxRefused : Counter
  rxOutOfWindow : Counter
  statusStale : Counter
  deriving DecidableEq, Repr

def FlowCounters.zero : FlowCounters := ⟨0, 0, 0, 0, 0, 0, 0, 0, 0, 0, 0⟩

/-- Table 10.5. -/
structure DeviceCounters where
  wireRxBad : Counter
  wireUnmatched : Counter
  managementIgnored : Counter
  linkRxBad : Counter
  linkRxMalformed : Counter
  linkRxStale : Counter
  linkRxForeign : Counter
  bulkDropped : Counter
  blocksTransmitted : Counter
  blocksReceived : Counter
  deriving DecidableEq, Repr

def DeviceCounters.zero : DeviceCounters := ⟨0, 0, 0, 0, 0, 0, 0, 0, 0, 0⟩

/-! ## The whole part -/

/-- The state of the part (0.3), the fused unit identifier (0.5, 0.6), the model's count of epoch draws
(log entry 1) and the queue of waiting commands. -/
structure State where
  unitId : Address
  flows : Vector Flow 64
  pool : Pool
  wire : WirePort
  link : LinkPort
  part : Partnership
  tables : TableStore
  hits : Vector Counter 128
  engine : Engine
  params : Params
  notices : Notices
  flowCounters : Vector FlowCounters 64
  deviceCounters : DeviceCounters
  epochDraws : Nat
  pending : List Instr
  deriving DecidableEq, Repr

/-- The model's reasons to stop with a fault: none. Every command of the HX604 has its effect on every
state, so no meaning raises a fault. -/
inductive Fault where
  deriving DecidableEq, Repr

/-- The model's reasons to refuse a command. -/
inductive Refusal where
  /-- Raised by `exec` for a command that has no meaning yet; safe (the model stops). No arm raises it. -/
  | notModelled (mnemonic : String)
  deriving DecidableEq, Repr

/-- The unit identifier in the fuses of the modelled unit. Log entry 5, DESIGN CHOICE, unsafe: the manual
gives every unit a value of its own, and this one is an individual address. -/
def fusedUnitId : Address := 0x000604000001

/-- The part after power-on reset with given fuses, draws made and commands waiting (R48, R71, R91, R106,
R118, R141, R147, R148, R169, 0.6 "Counters"). -/
def State.powerOn (unitId : Address) (epochDraws : Nat) (pending : List Instr) : State where
  unitId := unitId
  flows := tabulate fun _ => Flow.initial 100
  pool := Pool.initial
  wire := WirePort.initial
  link := LinkPort.initial
  part := Partnership.initial
  tables := TableStore.initial
  hits := Vector.replicate 128 0
  engine := Engine.initial
  params := Params.initial unitId
  notices := Notices.initial
  flowCounters := Vector.replicate 64 FlowCounters.zero
  deviceCounters := DeviceCounters.zero
  epochDraws := epochDraws
  pending := pending

/-- The part right after power-on reset, with no command waiting. -/
def State.reset : State := State.powerOn fusedUnitId 0 []

end Sys2Proof.Machine
end

