-- ==== Sys2Proof/Machine/Bytes.lean ====
section
/-! DEFINITION. Bytes and codes: byte order, the block CRC (R180), sequence arithmetic (0.6) and the codes of
Table 11.10. -/

namespace Sys2Proof.Machine

/-! ## Sequence arithmetic (0.6) -/

/-- 0.6: the distance from a to b is (b − a) mod 4096. -/
def seqDistance (a b : Seq) : Nat := (b - a).toNat

/-- 0.6: s is before t when the distance from s to t is 1 to 2047. -/
def seqBefore (s t : Seq) : Bool := 1 ≤ seqDistance s t && seqDistance s t ≤ 2047

/-! ## Byte order (section 11: most significant byte first) -/

/-- The low `n` bytes of a value, most significant first. -/
def beBytes : Nat → Nat → List Byte
  | 0, _ => []
  | n + 1, v => BitVec.ofNat 8 (v / 256 ^ n) :: beBytes n v

/-- The value of bytes, most significant first. -/
def beValue (bytes : List Byte) : Nat := bytes.foldl (fun acc b => acc * 256 + b.toNat) 0

/-- The bytes of a field at an offset (section 11: offsets are in bytes from 0). -/
def slice (bytes : List Byte) (offset size : Nat) : List Byte := (bytes.drop offset).take size

/-- The value of a field at an offset. -/
def field (bytes : List Byte) (offset size : Nat) : Nat := beValue (slice bytes offset size)

/-- The value of the one byte at an offset. -/
def byteAt (bytes : List Byte) (offset : Nat) : Nat := field bytes offset 1

/-- A mark as a flag bit. -/
def bitOf (mark : Bool) (position : Nat) : Nat := if mark then 2 ^ position else 0

/-- Whether a flag bit of a byte's value is set. -/
def hasBit (value position : Nat) : Bool := value.testBit position

/-! ## The block CRC (R180) -/

/-- One bit of the division by the generator polynomial 0x04C11DB7, least significant bit first. -/
def crcBit (remainder : BitVec 32) : BitVec 32 :=
  if remainder.getLsbD 0 then (remainder >>> 1) ^^^ 0xEDB88320 else remainder >>> 1

/-- One byte of the division. -/
def crcByte (remainder : BitVec 32) (b : Byte) : BitVec 32 :=
  (List.range 8).foldl (fun r _ => crcBit r) (remainder ^^^ b.setWidth 32)

/-- R180: the remainder starts at 0xFFFFFFFF and the result is complemented. -/
def crc32 (bytes : List Byte) : BitVec 32 := ~~~(bytes.foldl crcByte 0xFFFFFFFF)

/-- R180: the CRC bytes follow least significant byte first. The frame check sequence of a wire frame
is computed and sent in the same way (0.6). -/
def crcBytes (bytes : List Byte) : List Byte := (beBytes 4 (crc32 bytes).toNat).reverse

/-- Bytes with their check behind them. -/
def withCheck (bytes : List Byte) : List Byte := bytes ++ crcBytes bytes

/-- What was received before its last four bytes. -/
def checkedPart (received : List Byte) : List Byte := received.take (received.length - 4)

/-- R180, R103: the last four bytes are the check of the bytes before them; too short to hold a check
fails. -/
def checkHolds (received : List Byte) : Bool :=
  4 ≤ received.length && received.drop (received.length - 4) = crcBytes (checkedPart received)

/-! ## Codes (Table 11.10) -/

def OrderMode.code : OrderMode → Nat
  | .inOrder => 0
  | .arrival => 1

def orderOfCode : Nat → Option OrderMode
  | 0 => some .inOrder
  | 1 => some .arrival
  | _ => none

def ProfileMode.code : ProfileMode → Nat
  | .disabled => 0
  | .reliable => 1

def modeOfCode : Nat → Option ProfileMode
  | 0 => some .disabled
  | 1 => some .reliable
  | _ => none

def ExhaustionPolicy.code : ExhaustionPolicy → Nat
  | .fail => 0
  | .skip => 1

def exhaustionOfCode : Nat → Option ExhaustionPolicy
  | 0 => some .fail
  | 1 => some .skip
  | _ => none

def BankId.code : BankId → Nat
  | .a => 0
  | .b => 1

def bankOfCode : Nat → Option BankId
  | 0 => some .a
  | 1 => some .b
  | _ => none

def Verdict.code : Verdict → Nat
  | .accept => 0
  | .notReliable => 1
  | .profileMismatch => 2
  | .noBuffers => 3

def verdictOfCode : Nat → Option Verdict
  | 0 => some .accept
  | 1 => some .notReliable
  | 2 => some .profileMismatch
  | 3 => some .noBuffers
  | _ => none

def FlowState.code : FlowState → Nat
  | .closed => 0
  | .opening => 1
  | .opened => 2
  | .draining => 3
  | .closing => 4
  | .failed => 5

def LinkState.code : LinkState → Nat
  | .silent => 0
  | .joining => 1
  | .partnered => 2
  | .lost => 3

/-- Table 11.8: drain origin, 0 absent. -/
def drainOriginCode : Option DrainOrigin → Nat
  | none => 0
  | some .localEnd => 1
  | some .peerEnd => 2

/-- Table 11.10, pending lifecycle block, 0 absent. -/
def pendingBlockCode : Option LifecycleBlock → Nat
  | none => 0
  | some (.openFlow _ _) => 1
  | some (.openAck .accept) => 2
  | some (.openAck .notReliable) => 3
  | some (.openAck .profileMismatch) => 4
  | some (.openAck .noBuffers) => 5
  | some .close => 6
  | some .closeAck => 7
  | some .abort => 8

def Status.code : Status → Nat
  | .ok => 0
  | .accepted => 1
  | .busy => 2
  | .notBound => 3
  | .heldByOther => 4
  | .badRequest => 5
  | .badEntry => 6
  | .wrongState => 7
  | .notReliable => 8
  | .noPartner => 9
  | .noBuffers => 10
  | .staleGeneration => 11
  | .structuralChange => 12
  | .danglingFlow => 13
  | .inProgress => 14

def FlowCause.code : FlowCause → Nat
  | .request => 1
  | .peerOpen => 2
  | .openAccepted => 3
  | .openRefused => 4
  | .openTimeout => 5
  | .peerClose => 6
  | .drained => 7
  | .closeDone => 8
  | .closeUnconfirmed => 9
  | .retryExhausted => 10
  | .peerAbort => 11
  | .partnerRestart => 12
  | .partnerLeft => 13
  | .partnerLost => 14
  | .localLeave => 15

def LinkCause.code : LinkCause → Nat
  | .request => 1
  | .handshake => 2
  | .silence => 3
  | .regained => 4
  | .partnerRestart => 5
  | .holdExpired => 6
  | .joinTimeout => 7
  | .partnerLeft => 8

def Completion.code : Completion → Nat
  | .done => 0
  | .refused => 1
  | .timeout => 2
  | .partnerLost => 3
  | .aborted => 4
  | .unconfirmed => 5

/-- Table 11.10, detail and failure cause, 0 absent. -/
def detailCode : Option Detail → Nat
  | none => 0
  | some .notReliable => 1
  | some .profileMismatch => 2
  | some .noBuffers => 3
  | some .peerAbort => 4
  | some .retryExhausted => 5
  | some .partnerRestart => 6
  | some .partnerLost => 7
  | some .partnerLeft => 8

/-- A failure cause as the detail that a completion or FLOW_STATUS reports (Table 11.10). -/
def FailureCause.detail : FailureCause → Detail
  | .retryExhausted => .retryExhausted
  | .peerAbort => .peerAbort
  | .partnerRestart => .partnerRestart
  | .partnerLost => .partnerLost
  | .partnerLeft => .partnerLeft

/-- Table 3.3: entry to FAILED has the cause that is the failure cause. -/
def FailureCause.flowCause : FailureCause → FlowCause
  | .retryExhausted => .retryExhausted
  | .peerAbort => .peerAbort
  | .partnerRestart => .partnerRestart
  | .partnerLost => .partnerLost
  | .partnerLeft => .partnerLeft

/-- R56: the refusal verdict carried as a completion's reason. -/
def Verdict.reason : Verdict → Option Detail
  | .accept => none
  | .notReliable => some .notReliable
  | .profileMismatch => some .profileMismatch
  | .noBuffers => some .noBuffers

/-- Table 11.4, request codes. -/
def codeIdentify : Byte := 0x01
def codeBind : Byte := 0x02
def codeUnbind : Byte := 0x03
def codeReadTable : Byte := 0x10
def codeWriteTable : Byte := 0x11
def codeCopyBank : Byte := 0x12
def codeCommit : Byte := 0x13
def codeFlowOpen : Byte := 0x20
def codeFlowClose : Byte := 0x21
def codeFlowAbort : Byte := 0x22
def codeFlowReset : Byte := 0x23
def codeFlowStatus : Byte := 0x24
def codeLinkJoin : Byte := 0x30
def codeLinkLeave : Byte := 0x31
def codeLinkStatus : Byte := 0x32
def codeReadCounters : Byte := 0x40
def codeSetParams : Byte := 0x41
def codeReadParams : Byte := 0x42
def codeSetNotices : Byte := 0x43
def codeRestart : Byte := 0x44

/-- The codes of Table 11.4. -/
def requestCodes : List Byte :=
  [codeIdentify, codeBind, codeUnbind, codeReadTable, codeWriteTable, codeCopyBank, codeCommit,
    codeFlowOpen, codeFlowClose, codeFlowAbort, codeFlowReset, codeFlowStatus, codeLinkJoin,
    codeLinkLeave, codeLinkStatus, codeReadCounters, codeSetParams, codeReadParams, codeSetNotices,
    codeRestart]

/-- The request code of a deferred request (Table 11.4). -/
def DeferredCode.byte : DeferredCode → Byte
  | .flowOpen => codeFlowOpen
  | .flowClose => codeFlowClose

end Sys2Proof.Machine
end

