-- ==== Sys2Proof/Machine/Blocks.lean ====
section
/-! DEFINITION. Forming and reading link blocks (11.1, R179, R180, R143). -/

namespace Sys2Proof.Machine

/-! ## Forming (Table 11.1, Table 11.2, R179) -/

/-- Table 11.2, kind values. -/
def BlockBody.kind : BlockBody → Nat
  | .hello _ _ => 0x01
  | .keepalive => 0x02
  | .leave => 0x03
  | .openFlow _ _ _ => 0x10
  | .openAck _ _ => 0x11
  | .close _ => 0x12
  | .closeAck _ => 0x13
  | .abort _ => 0x14
  | .data _ _ _ => 0x20
  | .status _ _ _ _ => 0x21
  | .advance _ _ => 0x22
  | .bulk _ _ => 0x30

/-- R179: flag bit 0 is set only for a HELLO with a seen epoch and a STATUS with a high mark. -/
def BlockBody.flags : BlockBody → Nat
  | .hello _ (some _) => 1
  | .status _ _ _ (some _) => 1
  | _ => 0

/-- Table 11.2, payloads. -/
def BlockBody.payload : BlockBody → List Byte
  | .hello unit none => beBytes 6 unit.toNat
  | .hello unit (some seen) => beBytes 6 unit.toNat ++ beBytes 4 seen.toNat
  | .keepalive => []
  | .leave => []
  | .openFlow f window order => beBytes 1 f.val ++ beBytes 1 window ++ beBytes 1 (OrderMode.code order)
  | .openAck f verdict => beBytes 1 f.val ++ beBytes 1 (Verdict.code verdict)
  | .close f => beBytes 1 f.val
  | .closeAck f => beBytes 1 f.val
  | .abort f => beBytes 1 f.val
  | .data f s frame => beBytes 1 f.val ++ beBytes 2 s.toNat ++ frame
  | .status f a map none => beBytes 1 f.val ++ beBytes 2 a.toNat ++ beBytes 8 map.toNat
  | .status f a map (some h) =>
      beBytes 1 f.val ++ beBytes 2 a.toNat ++ beBytes 8 map.toNat ++ beBytes 2 h.toNat
  | .advance f s => beBytes 1 f.val ++ beBytes 2 s.toNat
  | .bulk cls frame => beBytes 1 cls.val ++ frame

/-- The common header (Table 11.1) and the payload. -/
def blockBytes (b : LinkBlock) : List Byte :=
  beBytes 1 (BlockBody.kind b.body) ++ beBytes 1 (BlockBody.flags b.body) ++ beBytes 4 b.epoch.toNat ++
    beBytes 2 (BlockBody.payload b.body).length ++ BlockBody.payload b.body

/-- The block as it is presented to the transceiver: header, payload and block CRC (R140, R180). -/
def formBlock (b : LinkBlock) : List Byte := withCheck (blockBytes b)

/-! ## Reading (R143 step 2, R179) -/

/-- R143: a flow number above 63 is malformed. -/
def flowOfByte (v : Nat) : Option FlowId := if h : v < 64 then some ⟨v, h⟩ else none

/-- R179: a class above 3 is malformed. -/
def classOfByte (v : Nat) : Option PortClass := if h : v < 4 then some ⟨v, h⟩ else none

/-- R179: a sequence field with nonzero top 4 bits is malformed. -/
def seqOfField (v : Nat) : Option Seq := if v < 4096 then some (BitVec.ofNat 12 v) else none

/-- 0.6 "Frames and buffers": a valid frame is 60 to 1522 bytes long. -/
def validFrameLength (frame : Frame) : Bool := 60 ≤ frame.length && frame.length ≤ 1522

/-- R179: a DATA or BULK frame outside 60..1522 bytes is malformed. -/
def frameOfBytes (bytes : List Byte) : Option Frame :=
  if validFrameLength bytes then some bytes else none

/-- The payload of a HELLO, with or without the seen epoch. -/
def readHello (optional : Bool) (p : List Byte) : Option BlockBody :=
  if p.length = (if optional then 10 else 6) then
    some (.hello (BitVec.ofNat 48 (field p 0 6))
      (if optional then some (BitVec.ofNat 32 (field p 6 4)) else none))
  else none

/-- The payload of an OPEN: flow, window 1..64, order. -/
def readOpen (p : List Byte) : Option BlockBody :=
  if p.length = 3 then do
    let f ← flowOfByte (byteAt p 0)
    let order ← orderOfCode (byteAt p 2)
    if 1 ≤ byteAt p 1 ∧ byteAt p 1 ≤ 64 then some (.openFlow f (byteAt p 1) order) else none
  else none

/-- The payload of an OPEN_ACK: flow, verdict. -/
def readOpenAck (p : List Byte) : Option BlockBody :=
  if p.length = 2 then do
    let f ← flowOfByte (byteAt p 0)
    let verdict ← verdictOfCode (byteAt p 1)
    some (.openAck f verdict)
  else none

/-- The payload of a CLOSE, CLOSE_ACK or ABORT: one flow number. -/
def readFlowOnly (make : FlowId → BlockBody) (p : List Byte) : Option BlockBody :=
  if p.length = 1 then (flowOfByte (byteAt p 0)).map make else none

/-- The payload of a DATA: flow, sequence, frame. -/
def readData (p : List Byte) : Option BlockBody :=
  if 3 ≤ p.length then do
    let f ← flowOfByte (byteAt p 0)
    let s ← seqOfField (field p 1 2)
    let frame ← frameOfBytes (p.drop 3)
    some (.data f s frame)
  else none

/-- The high mark of a STATUS, behind its map, when its flag bit is set. -/
def readHigh (optional : Bool) (p : List Byte) : Option (Option Seq) :=
  if optional then (seqOfField (field p 11 2)).map some else some none

/-- The payload of a STATUS, with or without the high mark; bit 0 of the map is clear. -/
def readStatus (optional : Bool) (p : List Byte) : Option BlockBody :=
  if p.length = (if optional then 13 else 11) then do
    let f ← flowOfByte (byteAt p 0)
    let a ← seqOfField (field p 1 2)
    let high ← readHigh optional p
    if hasBit (field p 3 8) 0 then none
    else some (.status f a (BitVec.ofNat 64 (field p 3 8)) high)
  else none

/-- The payload of an ADVANCE: flow, sequence. -/
def readAdvance (p : List Byte) : Option BlockBody :=
  if p.length = 3 then do
    let f ← flowOfByte (byteAt p 0)
    let s ← seqOfField (field p 1 2)
    some (.advance f s)
  else none

/-- The payload of a BULK: class, frame. -/
def readBulk (p : List Byte) : Option BlockBody :=
  if 1 ≤ p.length then do
    let cls ← classOfByte (byteAt p 0)
    let frame ← frameOfBytes (p.drop 1)
    some (.bulk cls frame)
  else none

/-- A kind that carries no optional field: flag bit 0 set makes the block malformed (R179). -/
def plainKind (optional : Bool) (read : Option BlockBody) : Option BlockBody :=
  if optional then none else read

/-- The body of a block by its kind value (Table 11.2); any other kind is malformed (R143). -/
def readBody (kind : Nat) (optional : Bool) (p : List Byte) : Option BlockBody :=
  match kind with
  | 0x01 => readHello optional p
  | 0x02 => plainKind optional (if p = [] then some .keepalive else none)
  | 0x03 => plainKind optional (if p = [] then some .leave else none)
  | 0x10 => plainKind optional (readOpen p)
  | 0x11 => plainKind optional (readOpenAck p)
  | 0x12 => plainKind optional (readFlowOnly .close p)
  | 0x13 => plainKind optional (readFlowOnly .closeAck p)
  | 0x14 => plainKind optional (readFlowOnly .abort p)
  | 0x20 => plainKind optional (readData p)
  | 0x21 => readStatus optional p
  | 0x22 => plainKind optional (readAdvance p)
  | 0x30 => plainKind optional (readBulk p)
  | _ => none

/-- Header and payload of a received block (the bytes before its CRC), or none when it is malformed
(R143 step 2, R179): too short for a header, a flag bit 1 to 7 set, a payload length that differs from
what was received, or a body that its kind does not allow. -/
def readBlock (bytes : List Byte) : Option LinkBlock :=
  if bytes.length < 8 then none
  else if 2 ≤ byteAt bytes 1 then none
  else if field bytes 6 2 ≠ bytes.length - 8 then none
  else (readBody (byteAt bytes 0) (byteAt bytes 1 == 1) (bytes.drop 8)).map fun body =>
    { epoch := BitVec.ofNat 32 (field bytes 2 4), body := body }

end Sys2Proof.Machine
end

