-- ==== Sys2Proof/Machine/Tables.lean ====
section
/-! DEFINITION. The table store: the two banks, and reading and writing table entries in the formats of 11.4
(sections 6.3 and 7, R122 to R131, R182, R183). -/

namespace Sys2Proof.Machine

/-! ## Banks (Table 7.1) -/

/-- The bank of a name. -/
def TableStore.bank (t : TableStore) : BankId → Bank
  | .a => t.bankA
  | .b => t.bankB

/-- The bank that the active-bank indicator does not name. -/
def BankId.other : BankId → BankId
  | .a => .b
  | .b => .a

/-- R119: the bank that every reader reads. -/
def TableStore.activeBank (t : TableStore) : Bank := t.bank t.active

/-- The bank that WRITE_TABLE and COPY_BANK reach. -/
def TableStore.shadowBank (t : TableStore) : Bank := t.bank (BankId.other t.active)

/-- The store with the shadow bank replaced. -/
def TableStore.setShadow (t : TableStore) (b : Bank) : TableStore :=
  match t.active with
  | .a => { t with bankB := b }
  | .b => { t with bankA := b }

/-- A flow's profile in the active bank (R119). -/
def TableStore.profile (t : TableStore) (f : FlowId) : Profile := readAt t.activeBank.profiles f

/-- R130 steps 1 and 2: the banks change places and the generation rises by one. -/
def TableStore.swap (t : TableStore) : TableStore :=
  { t with active := BankId.other t.active, generation := t.generation + 1 }

/-! ## Classification entries (Table 6.1, Table 11.7) -/

/-- A class argument of an action; above 3 the entry is bad (R124). -/
def plainActionOfBytes (kind arg : Nat) : Option PlainAction :=
  match kind with
  | 0 => some .discard
  | 1 => (classOfByte arg).map .bulk
  | _ => none

/-- An action: kind and argument (Table 11.7); the argument of DISCARD is not read (R183). -/
def entryActionOfBytes (kind arg : Nat) : Option EntryAction :=
  match kind with
  | 0 => some .discard
  | 1 => (classOfByte arg).map .bulk
  | 2 => (flowOfByte arg).map .flow
  | _ => none

/-- A present VLAN field: 0..4095, or 0xFFFF for UNTAGGED; other values make the entry bad (R182). -/
def vlanOfField (v : Nat) : Option VlanMatch :=
  if v = 0xFFFF then some .untagged
  else if v < 4096 then some (.id (BitVec.ofNat 12 v)) else none

/-- A present priority range: low and high within 0..7, low not above high (R124). -/
def priorityOfBytes (low high : Nat) : Option (BitVec 3 × BitVec 3) :=
  if low ≤ high ∧ high ≤ 7 then some (BitVec.ofNat 3 low, BitVec.ofNat 3 high) else none

/-- A present payload pattern: offset 0..127, length 1..4 (R124); bytes beyond the length are not read
(R183). -/
def patternOfBytes (offset length : Nat) (values masks : List Byte) : Option PayloadPattern :=
  if offset ≤ 127 ∧ 1 ≤ length ∧ length ≤ 4 then
    some { offset := offset, bytes := (values.zip masks).take length }
  else none

/-- A field that its present mark governs: absent when the mark is clear, else read, bad when it cannot
be (R183, R124). -/
def optionalField {α : Type} (present : Bool) (read : Option α) : Option (Option α) :=
  if present then read.map some else some none

/-- R124: a fallback is present exactly when the action is FLOW. -/
def fallbackFits : EntryAction → Option PlainAction → Bool
  | .flow _, some _ => true
  | .flow _, none => false
  | .discard, fallback | .bulk _, fallback => fallback.isNone

/-- A classification entry from its 33 bytes, or none when the entry is bad (R124, R182, R183). -/
def classEntryOfBytes (e : List Byte) : Option ClassEntry := do
  let presence := byteAt e 0
  let vlan ← optionalField (hasBit presence 4) (vlanOfField (field e 15 2))
  let priority ← optionalField (hasBit presence 5) (priorityOfBytes (byteAt e 17) (byteAt e 18))
  let pattern ← optionalField (hasBit presence 6)
    (patternOfBytes (byteAt e 19) (byteAt e 20) (slice e 21 4) (slice e 25 4))
  let action ← entryActionOfBytes (byteAt e 29) (byteAt e 30)
  let fallback ← optionalField (hasBit presence 7) (plainActionOfBytes (byteAt e 31) (byteAt e 32))
  if fallbackFits action fallback then
    some {
      valid := hasBit presence 0
      destination := if hasBit presence 1 then some (BitVec.ofNat 48 (field e 1 6)) else none
      source := if hasBit presence 2 then some (BitVec.ofNat 48 (field e 7 6)) else none
      etherType := if hasBit presence 3 then some (BitVec.ofNat 16 (field e 13 2)) else none
      vlan := vlan
      priority := priority
      pattern := pattern
      action := action
      fallback := fallback }
  else none

/-- The VLAN field as reported, zero when absent (R183). -/
def vlanField : Option VlanMatch → Nat
  | none => 0
  | some .untagged => 0xFFFF
  | some (.id vid) => vid.toNat

/-- Bytes padded with zero bytes to a length. -/
def padTo (n : Nat) (bytes : List Byte) : List Byte := bytes ++ List.replicate (n - bytes.length) 0

/-- Action kind and argument as reported (Table 11.7, R183). -/
def entryActionBytes : EntryAction → List Byte
  | .discard => [0, 0]
  | .bulk cls => [1, BitVec.ofNat 8 cls.val]
  | .flow f => [2, BitVec.ofNat 8 f.val]

/-- Fallback or default action as reported (Table 11.7, R183). -/
def plainActionBytes : PlainAction → List Byte
  | .discard => [0, 0]
  | .bulk cls => [1, BitVec.ofNat 8 cls.val]

/-- The 10 pattern bytes as reported, zero when absent (R183). -/
def patternBytes : Option PayloadPattern → List Byte
  | none => List.replicate 10 0
  | some p =>
      beBytes 1 p.offset ++ beBytes 1 p.bytes.length ++ padTo 4 (p.bytes.map (·.1)) ++
        padTo 4 (p.bytes.map (·.2))

/-- A classification entry as READ_TABLE reports it: 33 bytes, absent fields as zero (R183). -/
def classEntryBytes (e : ClassEntry) : List Byte :=
  beBytes 1 (bitOf e.valid 0 + bitOf e.destination.isSome 1 + bitOf e.source.isSome 2 +
      bitOf e.etherType.isSome 3 + bitOf e.vlan.isSome 4 + bitOf e.priority.isSome 5 +
      bitOf e.pattern.isSome 6 + bitOf e.fallback.isSome 7) ++
    beBytes 6 ((e.destination.map (·.toNat)).getD 0) ++
    beBytes 6 ((e.source.map (·.toNat)).getD 0) ++
    beBytes 2 ((e.etherType.map (·.toNat)).getD 0) ++
    beBytes 2 (vlanField e.vlan) ++
    beBytes 1 ((e.priority.map (·.1.toNat)).getD 0) ++
    beBytes 1 ((e.priority.map (·.2.toNat)).getD 0) ++
    patternBytes e.pattern ++ entryActionBytes e.action ++
    ((e.fallback.map plainActionBytes).getD [0, 0])

/-! ## Profiles and default actions (Table 7.2, Table 11.7) -/

/-- R124: every numeric field of a profile in its range of Table 7.2, the cap not below the reserve. -/
def Profile.inRange (p : Profile) : Bool :=
  1 ≤ p.window && p.window ≤ 64 && p.reserve ≤ 32 && 1 ≤ p.cap && p.cap ≤ 256 &&
    p.reserve ≤ p.cap && 1 ≤ p.retryLimit && p.retryLimit ≤ 15 && 5 ≤ p.rtoBase &&
    p.rtoBase ≤ 2000 && p.backoffLimit ≤ 5 && 1 ≤ p.ackEvery && p.ackEvery ≤ 32 &&
    1 ≤ p.ackDelay && p.ackDelay ≤ 100

/-- A profile from its 15 bytes, or none when the entry is bad (R124, R182). -/
def profileOfBytes (e : List Byte) : Option Profile := do
  let mode ← modeOfCode (byteAt e 0)
  let order ← orderOfCode (byteAt e 2)
  let exhaustion ← exhaustionOfCode (byteAt e 10)
  let linkClass ← classOfByte (byteAt e 13)
  let wireClass ← classOfByte (byteAt e 14)
  let p : Profile := {
    mode := mode
    window := byteAt e 1
    order := order
    reserve := byteAt e 3
    cap := field e 4 2
    retryLimit := byteAt e 6
    rtoBase := field e 7 2
    backoffLimit := byteAt e 9
    exhaustion := exhaustion
    ackEvery := byteAt e 11
    ackDelay := byteAt e 12
    linkClass := linkClass
    wireClass := wireClass }
  if p.inRange then some p else none

/-- A profile as READ_TABLE reports it: 15 bytes. -/
def profileBytes (p : Profile) : List Byte :=
  beBytes 1 (ProfileMode.code p.mode) ++ beBytes 1 p.window ++ beBytes 1 (OrderMode.code p.order) ++
    beBytes 1 p.reserve ++ beBytes 2 p.cap ++ beBytes 1 p.retryLimit ++ beBytes 2 p.rtoBase ++
    beBytes 1 p.backoffLimit ++ beBytes 1 (ExhaustionPolicy.code p.exhaustion) ++
    beBytes 1 p.ackEvery ++ beBytes 1 p.ackDelay ++ beBytes 1 p.linkClass.val ++
    beBytes 1 p.wireClass.val

/-- A default action from its 2 bytes, or none when it is bad (R124, R183). -/
def defaultOfBytes (e : List Byte) : Option PlainAction :=
  plainActionOfBytes (byteAt e 0) (byteAt e 1)

/-! ## Table requests on a bank (R122 to R125) -/

/-- The table named by a table code (Table 11.10). -/
inductive TableName where
  | classification | profile | default
  deriving DecidableEq, Repr

def tableOfCode : Nat → Option TableName
  | 0 => some .classification
  | 1 => some .profile
  | 2 => some .default
  | _ => none

/-- R122: the number of entries of each table. -/
def TableName.size : TableName → Nat
  | .classification => 128
  | .profile => 64
  | .default => 1

/-- Table 11.7: the number of bytes of an entry. -/
def TableName.entryBytes : TableName → Nat
  | .classification => 33
  | .profile => 15
  | .default => 2

/-- R122, R123: count 1 to 16, and the first index plus the count within the table. -/
def TableName.rangeOk (t : TableName) (first count : Nat) : Bool :=
  1 ≤ count && count ≤ 16 && first + count ≤ t.size

/-- The entry of a bank at an index, as READ_TABLE reports it. -/
def Bank.entryAt (b : Bank) (t : TableName) (i : Nat) : List Byte :=
  match t with
  | .classification => (b.entries.toList[i]?.map classEntryBytes).getD []
  | .profile => (b.profiles.toList[i]?.map profileBytes).getD []
  | .default => plainActionBytes b.default

/-- The bank with the entry at an index replaced by carried bytes, or none when that entry is bad
(R124, R125). -/
def Bank.writeEntry (b : Bank) (t : TableName) (i : Nat) (bytes : List Byte) : Option Bank :=
  match t with
  | .classification =>
      (classEntryOfBytes bytes).map fun e => { b with entries := b.entries.setIfInBounds i e }
  | .profile =>
      (profileOfBytes bytes).map fun p => { b with profiles := b.profiles.setIfInBounds i p }
  | .default => (defaultOfBytes bytes).map fun a => { b with default := a }

/-- What WRITE_TABLE's validation finds: the bank with every carried entry written, or the index of the
first bad entry (R124). -/
inductive WriteResult where
  | written (bank : Bank)
  | bad (index : Nat)
  deriving DecidableEq, Repr

/-- R124, R125: the carried entries, `count` of them from index `first`, in index order. -/
def Bank.writeEntries (t : TableName) : Nat → Nat → List Byte → Bank → WriteResult
  | 0, _, _, b => .written b
  | count + 1, i, bytes, b =>
    match b.writeEntry t i (bytes.take t.entryBytes) with
    | none => .bad i
    | some b' => Bank.writeEntries t count (i + 1) (bytes.drop t.entryBytes) b'

/-- R129: the structural fields of Table 7.2 are the same in two profiles. -/
def Profile.sameStructure (p q : Profile) : Bool :=
  p.mode == q.mode && p.window == q.window && p.order == q.order && p.reserve == q.reserve &&
    p.cap == q.cap

/-- R128: the action of a valid entry names a flow whose profile in the same bank is DISABLED. -/
def Bank.dangling (b : Bank) (i : Fin 128) : Bool :=
  let e := readAt b.entries i
  match e.action with
  | .flow f => e.valid && (readAt b.profiles f).mode == .disabled
  | .discard | .bulk _ => false

/-- R128: the index of the first such entry. -/
def Bank.firstDangling (b : Bank) : Option (Fin 128) := (List.finRange 128).find? b.dangling

end Sys2Proof.Machine
end

