-- ==== Sys2Proof/Machine/Operands.lean ====
section
/-! DEFINITION. The operands that commands carry or find: wire frames (R104), classification of a frame (R107,
R108), management frames and their headers (R181, R182, Table 11.3). -/

namespace Sys2Proof.Machine

/-! ## Frames (R104) -/

/-- What R104 reads of a frame: for a tagged frame the priority and the VLAN ID. -/
structure FrameView where
  destination : Address
  source : Address
  tag : Option (BitVec 3 × BitVec 12)
  etherType : BitVec 16
  payload : List Byte
  deriving DecidableEq, Repr

/-- R104: the reading of a frame's header; 0x8100 in bytes 12..13 makes it tagged, and one tag only is
read. -/
def readFrame (f : Frame) : FrameView :=
  if field f 12 2 = 0x8100 then
    { destination := BitVec.ofNat 48 (field f 0 6)
      source := BitVec.ofNat 48 (field f 6 6)
      tag := some (BitVec.ofNat 3 (field f 14 2 / 2 ^ 13), BitVec.ofNat 12 (field f 14 2))
      etherType := BitVec.ofNat 16 (field f 16 2)
      payload := f.drop 18 }
  else
    { destination := BitVec.ofNat 48 (field f 0 6)
      source := BitVec.ofNat 48 (field f 6 6)
      tag := none
      etherType := BitVec.ofNat 16 (field f 12 2)
      payload := f.drop 14 }

/-- 0.6: the management EtherType. -/
def managementEtherType : BitVec 16 := 0x9C41

/-- 0.6: the broadcast address, whose 48 bits are all ones. -/
def broadcastAddress : Address := BitVec.allOnes 48

/-- 0.6: a group address has the least significant bit of its first byte set. -/
def isGroup (a : Address) : Bool := a.getLsbD 40

/-! ## Matching (Table 6.1, R107, R108) -/

/-- An absent match field matches every frame; a present one matches when the test holds. -/
def absentOr {α : Type} (m : Option α) (test : α → Bool) : Bool :=
  match m with
  | none => true
  | some x => test x

/-- Table 6.1, VLAN. -/
def VlanMatch.holds (m : VlanMatch) (tag : Option (BitVec 3 × BitVec 12)) : Bool :=
  match m, tag with
  | .untagged, none => true
  | .id vid, some (_, v) => vid == v
  | .untagged, some _ => false
  | .id _, none => false

/-- Table 6.1, priority range: fails for every untagged frame (R107). -/
def priorityHolds (range : BitVec 3 × BitVec 3) (tag : Option (BitVec 3 × BitVec 12)) : Bool :=
  match tag with
  | none => false
  | some (p, _) => range.1.toNat ≤ p.toNat && p.toNat ≤ range.2.toNat

/-- R107: the payload pattern; it fails when the offset plus the length exceeds the payload length. -/
def PayloadPattern.holds (m : PayloadPattern) (payload : List Byte) : Bool :=
  m.offset + m.bytes.length ≤ payload.length &&
    ((payload.drop m.offset).zip m.bytes).all fun (b, value, mask) => b &&& mask == value &&& mask

/-- R107: the entry is valid and every match field that is present matches. -/
def ClassEntry.holds (e : ClassEntry) (v : FrameView) : Bool :=
  e.valid && absentOr e.destination (· == v.destination) && absentOr e.source (· == v.source) &&
    absentOr e.etherType (· == v.etherType) && absentOr e.vlan (·.holds v.tag) &&
    absentOr e.priority (priorityHolds · v.tag) && absentOr e.pattern (·.holds v.payload)

/-- R108: the first entry in index order that matches decides the frame. -/
def Bank.classify (b : Bank) (v : FrameView) : Option (Fin 128) :=
  (List.finRange 128).find? fun i => (readAt b.entries i).holds v

/-! ## Management frames (R181, Table 11.3) -/

/-- Table 11.3, message kinds. -/
def kindRequest : Nat := 1
def kindResponse : Nat := 2
def kindNotice : Nat := 3

/-- A management header and its body. -/
structure ManagementHeader where
  version : Nat
  kind : Nat
  tag : Tag
  code : Byte
  target : Address
  body : List Byte
  deriving DecidableEq, Repr

/-- R182: malformed when the message kind is none of the three codes, when the body length is larger than
the bytes that follow the header, or when the frame ends inside the header. Bytes beyond the body
length are ignored (R181). -/
def readManagement (payload : List Byte) : Option ManagementHeader :=
  if payload.length < 14 then none
  else if byteAt payload 1 < 1 ∨ 3 < byteAt payload 1 then none
  else if payload.length - 14 < field payload 12 2 then none
  else some {
    version := byteAt payload 0
    kind := byteAt payload 1
    tag := BitVec.ofNat 16 (field payload 2 2)
    code := BitVec.ofNat 8 (byteAt payload 4)
    target := BitVec.ofNat 48 (field payload 6 6)
    body := slice payload 14 (field payload 12 2) }

/-- R181: a management frame that the bridge sends, untagged, padded with zero bytes to 60 bytes. -/
def formManagement (destination source unitId : Address) (kind : Nat) (tag : Tag) (code : Byte)
    (statusOrKind : Nat) (body : List Byte) : Frame :=
  padTo 60 (beBytes 6 destination.toNat ++ beBytes 6 source.toNat ++
    beBytes 2 managementEtherType.toNat ++ beBytes 1 1 ++ beBytes 1 kind ++ beBytes 2 tag.toNat ++
    [code] ++ beBytes 1 statusOrKind ++ beBytes 6 unitId.toNat ++ beBytes 2 body.length ++ body)

end Sys2Proof.Machine
end

