-- ==== Sys2Proof/Machine/Flags.lean ====
section
/-! DEFINITION. The conditions that rules read: what an entry is (R5), what is offered (R7, R42, R50, R74, R134),
what the pool has free (5.1), and the scheduler's selection (R134 to R138). -/

namespace Sys2Proof.Machine

/-! ## Timers -/

def Timer.isRunning : Timer → Bool
  | .stopped => false
  | .running _ => true

/-- R24, R90: a timer runs out when its whole duration has passed and nothing has stopped or restarted it
(0.6 "Times and timers"), so an expiry that a stop or a restart has forestalled does not occur. -/
def Timer.hasRunOut : Timer → Bool
  | .running 0 => true
  | .stopped | .running (_ + 1) => false

/-- A timer started with a duration if it is stopped; a running one continues unchanged. -/
def Timer.startIfStopped (t : Timer) (duration : Nat) : Timer :=
  match t with
  | .stopped => .running duration
  | .running r => .running r

/-- One millisecond passes. A timer at 0 has run out, and its expiry is the next happening at it. -/
def Timer.tick : Timer → Timer
  | .stopped => .stopped
  | .running r => .running (r - 1)

/-! ## Window entries (R5) -/

/-- R5: OUTSTANDING, or SKIPPED with advance state SENT. -/
def WindowEntry.inFlight (e : WindowEntry) : Bool :=
  match e.condition with
  | .outstanding _ | .skipped .sent => true
  | .sacked _ | .pendingRetx _ | .skipped .due => false

/-- R5: PENDING_RETX, or SKIPPED with advance state DUE. -/
def WindowEntry.due (e : WindowEntry) : Bool :=
  match e.condition with
  | .pendingRetx _ | .skipped .due => true
  | .outstanding _ | .sacked _ | .skipped .sent => false

/-- Table 1.2: the buffer is absent once the entry is SKIPPED. -/
def WindowEntry.holdsBuffer (e : WindowEntry) : Bool :=
  match e.condition with
  | .skipped _ => false
  | .outstanding _ | .sacked _ | .pendingRetx _ => true

/-- Table 2.2: a FRAME member holds a buffer. -/
def Member.holdsBuffer (m : Member) : Bool :=
  match m.kind with
  | .frame _ => true
  | .skip | .delivered => false

/-! ## Flows -/

/-- The flow is in OPEN, DRAINING or CLOSING (R11, R28, R38, R42). -/
def Flow.takesBlocks (fl : Flow) : Bool :=
  match fl.state with
  | .opened | .draining | .closing => true
  | .closed | .opening | .failed => false

/-- The flow is not CLOSED or FAILED. -/
def Flow.inUse (fl : Flow) : Bool :=
  match fl.state with
  | .closed | .failed => false
  | .opening | .opened | .draining | .closing => true

def Flow.anyInFlight (fl : Flow) : Bool := fl.window.any (·.inFlight)

/-- R8: the due entry with the lowest sequence; the window is ordered by sequence (Table 1.1). -/
def Flow.firstDue (fl : Flow) : Option WindowEntry := fl.window.find? (·.due)

/-- R51 steps 1 and 2: the buffers that the flow's collections hold. -/
def Flow.collectedBuffers (fl : Flow) : Nat :=
  fl.sendQueue.length + fl.window.countP (·.holdsBuffer) + fl.reorder.countP (·.holdsBuffer)

/-- R7: OPEN or DRAINING, not suspended, and a due entry, or a frame to send with room in the window. -/
def Flow.offersData (fl : Flow) (window : Nat) : Bool :=
  (fl.state == .opened || fl.state == .draining) && !fl.suspended &&
    (fl.firstDue.isSome || (!fl.sendQueue.isEmpty && fl.window.length < window))

/-- R42: status pending, in OPEN, DRAINING or CLOSING, and not suspended. -/
def Flow.offersStatus (fl : Flow) : Bool := fl.statusPending && fl.takesBlocks && !fl.suspended

/-- R50: a pending lifecycle block of a flow that is not suspended. -/
def Flow.offersLifecycle (fl : Flow) : Bool := fl.pendingBlock.isSome && !fl.suspended

/-- R58: the drain is complete. -/
def Flow.drained (fl : Flow) : Bool :=
  fl.state == .draining && !fl.suspended && fl.sendQueue.isEmpty && fl.window.isEmpty &&
    fl.pendingBlock.isNone

/-! ## The pool (5.1) -/

/-- 5.1: the reservation minus the held count when positive, and 0 otherwise. -/
def Pool.unusedReservation (p : Pool) (f : FlowId) : Nat := readAt p.reservation f - readAt p.held f

/-- 5.1: the sum of the unused reservations of all 64 flows. -/
def Pool.totalUnused (p : Pool) : Nat := ((List.finRange 64).map p.unusedReservation).sum

/-- 5.1: the free count minus the sum of the unused reservations. -/
def Pool.sharedFree (p : Pool) : Nat := p.free - p.totalUnused

/-! ## Reading the state -/

/-- The context of a flow. -/
def State.flow (s : State) (f : FlowId) : Flow := readAt s.flows f

/-- R119: a flow's profile in the active bank. -/
def State.profile (s : State) (f : FlowId) : Profile := s.tables.profile f

def State.held (s : State) (f : FlowId) : Nat := readAt s.pool.held f

/-- R154: the binding is BOUND to an address. -/
def State.boundTo (s : State) (a : Address) : Bool :=
  match s.engine.binding with
  | .unbound => false
  | .bound manager _ _ _ => manager == a

/-- The own epoch that a block of categories 2 to 5 would carry: these are open only while PARTNERED
(R134), and no block is formed while the own epoch is absent (R72). -/
def State.carrierEpoch (s : State) : Option Epoch :=
  if s.part.state = .partnered then s.part.ownEpoch else none

/-! ## Offers and selection (R74, R134 to R138) -/

/-- R74: HELLO is offered in JOINING, PARTNERED and LOST; no block is formed without an own epoch (R72). -/
def Partnership.offersHello (p : Partnership) : Bool :=
  p.helloPending && p.state != .silent && p.ownEpoch.isSome

/-- R74: KEEPALIVE is offered in PARTNERED. -/
def Partnership.offersKeepalive (p : Partnership) : Bool :=
  p.keepalivePending && p.state == .partnered && p.ownEpoch.isSome

/-- R134 category 1. -/
def Partnership.offers (p : Partnership) : Bool :=
  p.leavePending.isSome || p.offersHello || p.offersKeepalive

/-- The flow numbers searched upward from a position, wrapping from 63 to 0 (R136, R137). -/
def searchFrom (position : FlowId) : List FlowId := (List.finRange 64).map (position + ·)

/-- R135: the first flow in the lifecycle order that is not suspended. -/
def State.lifecycleOffer (s : State) : Option FlowId :=
  s.link.lifecycleOrder.find? fun f => (s.flow f).offersLifecycle

/-- R136. -/
def State.statusOffer (s : State) : Option FlowId :=
  (searchFrom s.link.statusPosition).find? fun f => (s.flow f).offersStatus

/-- R7, with the window of the flow's active profile. -/
def State.offersData (s : State) (f : FlowId) : Bool := (s.flow f).offersData (s.profile f).window

/-- R137: the first offering flow of one link class. -/
def State.dataOfferIn (s : State) (cls : PortClass) : Option FlowId :=
  (searchFrom (readAt s.link.dataPositions cls)).find? fun f =>
    (s.profile f).linkClass == cls && s.offersData f

/-- R137: the highest link class in which any flow offers, and the flow. -/
def State.dataOffer (s : State) : Option (FlowId × PortClass) :=
  [(3 : PortClass), 2, 1, 0].findSome? fun cls => (s.dataOfferIn cls).map (·, cls)

/-- R152: the bulk category offers while the link reply queue or the link bulk queue holds a frame. -/
def State.offersBulk (s : State) : Bool :=
  !s.engine.linkReply.isEmpty || !s.link.bulkQueue.isEmpty

/-- R138: data and bulk against the bulk credit. -/
def State.dataOrBulk (s : State) : Option Grant :=
  match s.dataOffer with
  | some (f, cls) =>
    if s.offersBulk && s.link.bulkCredit == 15 then some .bulk else some (.data f cls)
  | none => if s.offersBulk then some .bulk else none

/-- R134: the first category with an offer; categories 2 to 5 are examined only while PARTNERED. -/
def State.selection (s : State) : Option Grant :=
  if s.part.offers then some .partnership
  else match s.carrierEpoch with
    | none => none
    | some _ =>
      match s.lifecycleOffer with
      | some f => some (.lifecycle f)
      | none =>
        match s.statusOffer with
        | some f => some (.status f)
        | none => s.dataOrBulk

end Sys2Proof.Machine
end

