-- ==== Sys2Proof/Machine/Ops.lean ====
section
/-! DEFINITION. The named operations that the meanings share: updates of one block's state, notice causes
(section 10), the pool's grants and releases (section 5), pending lifecycle blocks and the entry to
CLOSED or FAILED (section 3), the wire egress (8.6), the reply paths (9.3), the presenting of a block
(R140), the application of a RESTART (R167), and the end of a happening. -/

namespace Sys2Proof.Machine

/-! ## Updates of one block -/

def State.modifyFlow (s : State) (f : FlowId) (g : Flow → Flow) : State :=
  { s with flows := writeAt s.flows f (g (s.flow f)) }

def State.modifyPool (s : State) (g : Pool → Pool) : State := { s with pool := g s.pool }

def State.modifyWire (s : State) (g : WirePort → WirePort) : State := { s with wire := g s.wire }

def State.modifyLink (s : State) (g : LinkPort → LinkPort) : State := { s with link := g s.link }

def State.modifyPart (s : State) (g : Partnership → Partnership) : State := { s with part := g s.part }

def State.modifyEngine (s : State) (g : Engine → Engine) : State := { s with engine := g s.engine }

def State.modifyNotices (s : State) (g : Notices → Notices) : State :=
  { s with notices := g s.notices }

/-- A rise of per-flow counters (Table 10.4). -/
def State.countFlow (s : State) (f : FlowId) (g : FlowCounters → FlowCounters) : State :=
  { s with flowCounters := writeAt s.flowCounters f (g (readAt s.flowCounters f)) }

/-- A rise of device counters (Table 10.5). -/
def State.countDevice (s : State) (g : DeviceCounters → DeviceCounters) : State :=
  { s with deviceCounters := g s.deviceCounters }

/-- A happening at every flow, in increasing flow number (3.7). -/
def State.eachFlow (s : State) (g : State → FlowId → State) : State := (List.finRange 64).foldl g s

def State.countStale (s : State) : State :=
  s.countDevice fun c => { c with linkRxStale := c.linkRxStale + 1 }

def State.countForeign (s : State) : State :=
  s.countDevice fun c => { c with linkRxForeign := c.linkRxForeign + 1 }

def State.countIgnored (s : State) : State :=
  s.countDevice fun c => { c with managementIgnored := c.managementIgnored + 1 }

def State.countBulkDropped (s : State) : State :=
  s.countDevice fun c => { c with bulkDropped := c.bulkDropped + 1 }

/-! ## Notice causes (R170 to R173) -/

/-- R170 step 1: the enable mark of a cause's kind; COMPLETION has none and is never masked. -/
def Notices.enabled (n : Notices) : NoticeContent → Bool
  | .flowState _ _ _ _ => n.flowStateEnabled
  | .linkState _ _ _ => n.linkStateEnabled
  | .poolLow _ => n.poolLowEnabled
  | .completion _ _ _ _ => true

/-- R171: the content of a queued notice with a cause folded into it; none when the cause cannot be
folded into that notice. -/
def NoticeContent.fold (cause queued : NoticeContent) : Option NoticeContent :=
  match cause, queued with
  | .flowState f _ new why, .flowState f' old _ _ =>
    if f = f' then some (.flowState f' old new why) else none
  | .linkState _ new why, .linkState old _ _ => some (.linkState old new why)
  | .poolLow free, .poolLow _ => some (.poolLow free)
  | _, _ => none

/-- R171, R173: a queued notice with a cause folded into it: transitions rise by one up to 65535, and a
marked cause gives its mark. -/
def Notice.fold (n : Notice) (cause : NoticeContent) (mark : Option RequestMark) : Option Notice :=
  (cause.fold n.content).map fun content =>
    { content := content
      transitions := n.transitions.map fun t => min (t + 1) 65535
      held := mark.or n.held }

/-- R171: the queue with a cause folded into the notice that takes it; none when no notice does. The
notice keeps its place. -/
def foldQueue (cause : NoticeContent) (mark : Option RequestMark) : List Notice → Option (List Notice)
  | [] => none
  | n :: rest =>
    match n.fold cause mark with
    | some n' => some (n' :: rest)
    | none => (foldQueue cause mark rest).map (n :: ·)

/-- R170 step 3: transitions 1 for the three coalescing kinds, absent for COMPLETION. -/
def NoticeContent.firstTransitions : NoticeContent → Option Nat
  | .completion _ _ _ _ => none
  | .flowState _ _ _ _ | .linkState _ _ _ | .poolLow _ => some 1

/-- R170, R172: a cause is dropped by the mask, folded, appended while the queue holds fewer than 32
notices, or lost, which sets the overrun flag. -/
def Notices.take (n : Notices) (cause : NoticeContent) (mark : Option RequestMark) : Notices :=
  if n.enabled cause then
    match foldQueue cause mark n.queue with
    | some queue => { n with queue := queue }
    | none =>
      if n.queue.length < 32 then
        { n with queue := n.queue ++ [⟨cause, cause.firstTransitions, mark⟩] }
      else { n with overrun := true }
  else n

/-- R170, R173: a notice cause reaches the management engine; one raised during the execution of a
request is marked with it. -/
def State.raiseCause (s : State) (cause : NoticeContent) : State :=
  s.modifyNotices fun n => n.take cause s.engine.executing

/-- The completion of a deferred flow request (R51 step 8, R158), if one is held. -/
def State.complete (s : State) (d : Option Deferred) (outcome : DeferredCode → Completion × Option Detail) :
    State :=
  match d with
  | none => s
  | some d => s.raiseCause (.completion d.tag (DeferredCode.byte d.code) (outcome d.code).1 (outcome d.code).2)

/-! ## The pool (section 5) -/

/-- R100: the low-pool test, made after a happening that has changed shared free from `before`. -/
def State.lowPoolTest (s : State) (before : Nat) : State :=
  let now := s.pool.sharedFree
  if now = before then s
  else if s.pool.lowArmed then
    if now < s.params.poolLow then
      (s.modifyPool fun p => { p with lowArmed := false }).raiseCause (.poolLow now)
    else s
  else if s.params.poolLow ≤ now then s.modifyPool fun p => { p with lowArmed := true }
  else s

/-- R96: a buffer moves from free to a flow's account. -/
def Pool.chargeFlow (p : Pool) (f : FlowId) : Pool :=
  { p with free := p.free - 1, held := writeAt p.held f (readAt p.held f + 1) }

/-- R96: the condition of a grant to a flow's account under a cap. -/
def Pool.grantsFlow (p : Pool) (f : FlowId) (cap : Nat) : Bool :=
  readAt p.held f < cap && (readAt p.held f < readAt p.reservation f || 1 ≤ p.sharedFree)

/-- R96: a request for a buffer charged to a flow: the state after a grant, or none on refusal. -/
def State.grantFlow (s : State) (f : FlowId) : Option State :=
  if s.pool.grantsFlow f (s.profile f).cap then
    some ((s.modifyPool (·.chargeFlow f)).lowPoolTest s.pool.sharedFree)
  else none

/-- R97: the condition of a grant to the bulk account. -/
def Pool.grantsBulk (p : Pool) (cap : Nat) : Bool := p.bulkHeld < cap && 1 ≤ p.sharedFree

/-- R97: a request for a buffer charged to the bulk account. -/
def State.grantBulk (s : State) : Option State :=
  if s.pool.grantsBulk s.params.bulkCap then
    some ((s.modifyPool fun p => { p with free := p.free - 1, bulkHeld := p.bulkHeld + 1 }).lowPoolTest
      s.pool.sharedFree)
  else none

/-- R98: buffers return to free from a flow's account, never more than it holds (R92). -/
def Pool.returnFlow (p : Pool) (f : FlowId) (n : Nat) : Pool :=
  { p with
    free := p.free + min n (readAt p.held f)
    held := writeAt p.held f (readAt p.held f - min n (readAt p.held f)) }

/-- R98: a release of a flow's buffers as one change, and the low-pool test after it. -/
def State.releaseFlow (s : State) (f : FlowId) (n : Nat) : State :=
  (s.modifyPool (·.returnFlow f n)).lowPoolTest s.pool.sharedFree

/-- R98: a release of one bulk buffer. -/
def State.releaseBulk (s : State) : State :=
  (s.modifyPool fun p =>
    { p with free := p.free + min 1 p.bulkHeld, bulkHeld := p.bulkHeld - 1 }).lowPoolTest
      s.pool.sharedFree

/-- R99: a release of one buffer to the account that holds it. -/
def State.releaseAccount (s : State) : Account → State
  | .flow f => s.releaseFlow f 1
  | .bulk => s.releaseBulk

/-- R94: the reservation of a flow, made when shared free is at least the full reserve; none when it is
refused. -/
def State.reserveFlow (s : State) (f : FlowId) : Option State :=
  if (s.profile f).reserve ≤ s.pool.sharedFree then
    some ((s.modifyPool fun p =>
      { p with reservation := writeAt p.reservation f (s.profile f).reserve }).lowPoolTest
        s.pool.sharedFree)
  else none

/-- R51 steps 1, 2 and 5, R95: the collections' buffers return and the reservation becomes 0, as one
change with one low-pool test. -/
def State.emptyAccount (s : State) (f : FlowId) (buffers : Nat) : State :=
  (s.modifyPool fun p =>
    { p.returnFlow f buffers with reservation := writeAt p.reservation f 0 }).lowPoolTest
      s.pool.sharedFree

/-! ## Lifecycle (section 3) -/

/-- R50, R135: a block becomes pending, in place of any other, and its flow joins the tail of the
lifecycle order. -/
def State.makePending (s : State) (f : FlowId) (b : LifecycleBlock) : State :=
  (s.modifyFlow f fun fl => { fl with pendingBlock := some b }).modifyLink fun l =>
    { l with lifecycleOrder := l.lifecycleOrder.filter (· ≠ f) ++ [f] }

/-- R135: the pending block is cleared without being sent, and its flow leaves the lifecycle order. -/
def State.clearPending (s : State) (f : FlowId) : State :=
  (s.modifyFlow f fun fl => { fl with pendingBlock := none }).modifyLink fun l =>
    { l with lifecycleOrder := l.lifecycleOrder.filter (· ≠ f) }

/-- R68, R69: every pending lifecycle block, of every flow, is discarded. -/
def State.discardPending (s : State) : State :=
  (s.eachFlow fun s f => s.modifyFlow f fun fl => { fl with pendingBlock := none }).modifyLink
    fun l => { l with lifecycleOrder := [] }

/-- R49: a change of a flow's state, with the FLOW_STATE cause it raises. -/
def State.changeFlowState (s : State) (f : FlowId) (new : FlowState) (cause : FlowCause) : State :=
  (s.modifyFlow f fun fl => { fl with state := new }).raiseCause
    (.flowState f (s.flow f).state new cause)

/-- R1, R26: the sender and receiver fields at an opening. -/
def Flow.reinitialised (fl : Flow) (rtoBase : Nat) : Flow :=
  { fl with
    sendQueue := []
    lower := 0
    next := 0
    window := []
    txOrder := []
    rto := rtoBase
    retxTimer := .stopped
    expected := 0
    reorder := []
    dataSince := 0
    ackTimer := .stopped
    statusPending := false }

/-- R51 steps 1 to 7 at the flow context: the entry to CLOSED or FAILED. L, N, E and the current RTO keep
their values; a failure cause is written on entry to FAILED. -/
def Flow.ended (fl : Flow) (new : FlowState) (failure : Option FailureCause) (keepBlock : Bool) : Flow :=
  { fl with
    state := new
    suspended := false
    sendQueue := []
    window := []
    txOrder := []
    retxTimer := .stopped
    reorder := []
    dataSince := 0
    ackTimer := .stopped
    statusPending := false
    drainOrigin := none
    failureCause := failure.or fl.failureCause
    attempts := 0
    openTimer := .stopped
    pendingBlock := if keepBlock then fl.pendingBlock else none
    deferred := none }

/-- R51: the entry of a flow to CLOSED or FAILED. `keepBlock` says that the transition leaves the pending
lifecycle block (step 4); `outcome` is what the causing rule names for a deferred request (step 8). -/
def State.endFlow (s : State) (f : FlowId) (new : FlowState) (cause : FlowCause)
    (failure : Option FailureCause) (keepBlock : Bool)
    (outcome : DeferredCode → Completion × Option Detail) : State :=
  let fl := s.flow f
  let s := s.emptyAccount f fl.collectedBuffers
  let s := s.modifyFlow f (·.ended new failure keepBlock)
  let s := if keepBlock then s else s.clearPending f
  (s.complete fl.deferred outcome).raiseCause (.flowState f fl.state new cause)

/-- R51 for an entry to CLOSED. -/
def State.closeFlow (s : State) (f : FlowId) (cause : FlowCause) (keepBlock : Bool)
    (outcome : DeferredCode → Completion × Option Detail) : State :=
  s.endFlow f .closed cause none keepBlock outcome

/-- R51 for an entry to FAILED, whose FLOW_STATE cause is the failure cause (Table 3.3). -/
def State.failFlow (s : State) (f : FlowId) (failure : FailureCause) (keepBlock : Bool)
    (outcome : DeferredCode → Completion × Option Detail) : State :=
  s.endFlow f .failed (FailureCause.flowCause failure) (some failure) keepBlock outcome

/-- One outcome with no detail, whatever the deferred request. -/
def plainOutcome (o : Completion) : DeferredCode → Completion × Option Detail := fun _ => (o, none)

/-- R50: OPEN becomes pending with the window and order mode of the active profile at that moment. -/
def State.makeOpenPending (s : State) (f : FlowId) : State :=
  s.makePending f (.openFlow (s.profile f).window (s.profile f).order)

/-- R58: the completion of a drain, if it is complete: CLOSE for origin LOCAL, CLOSE_ACK and CLOSED for
origin PEER. -/
def State.completeDrain (s : State) (f : FlowId) : State :=
  if (s.flow f).drained then
    match (s.flow f).drainOrigin with
    | some .localEnd =>
      let s := s.makePending f .close
      let s := s.modifyFlow f fun fl =>
        { fl with attempts := 0, retxTimer := .stopped, drainOrigin := none }
      s.changeFlowState f .closing .drained
    | some .peerEnd => (s.makePending f .closeAck).closeFlow f .drained true (plainOutcome .done)
    | none => s
  else s

/-! ## The wire egress (R145) -/

/-- R145: the head of the highest non-empty class queue is taken. -/
def WirePort.takeClass (w : WirePort) : List PortClass → WirePort
  | [] => w
  | cls :: lower =>
    match readAt w.classQueues cls with
    | item :: rest =>
      { w with
        classQueues := writeAt w.classQueues cls rest
        transmitter := .sending (.account item.account) (withCheck item.frame) }
    | [] => w.takeClass lower

/-- R145: an IDLE transmitter with the wired link up takes the head of the management egress, else of
class queue 3, 2, 1 or 0, and sends it with a check computed afresh (R103). -/
def WirePort.take (w : WirePort) : WirePort :=
  match w.transmitter with
  | .sending _ _ => w
  | .idle =>
    if w.linkUp then
      match w.managementEgress with
      | item :: _ => { w with transmitter := .sending .management (withCheck item.frame) }
      | [] => w.takeClass [3, 2, 1, 0]
    else w

/-- A frame is placed at the tail of a class queue (R37, R114). -/
def State.placeClass (s : State) (cls : PortClass) (item : WireItem) : State :=
  s.modifyWire fun w =>
    ({ w with classQueues := writeAt w.classQueues cls (readAt w.classQueues cls ++ [item]) } :
      WirePort).take

/-- R37: the delivery of a flow's frame to the wire egress. -/
def State.deliver (s : State) (f : FlowId) (frame : Frame) : State :=
  (s.placeClass (s.profile f).wireClass ⟨.flow f, frame⟩).countFlow f fun c =>
    { c with rxDelivered := c.rxDelivered + 1 }

/-! ## The reply paths (R152) -/

/-- R151, R156, R174: the reply path of an origin holds fewer frames than a limit. -/
def State.pathRoom (s : State) (wireLimit linkLimit : Nat) : Origin → Bool
  | .wire => s.wire.managementEgress.length < wireLimit
  | .link => s.engine.linkReply.length < linkLimit

/-- R152: a management frame at the tail of a reply path. A frame placed in the link reply queue while the
partnership is SILENT is discarded at once. -/
def State.placeReply (s : State) (origin : Origin) (item : ReplyItem) : State :=
  match origin with
  | .wire =>
    s.modifyWire fun w =>
      ({ w with managementEgress := w.managementEgress ++ [item] } : WirePort).take
  | .link =>
    if s.part.state = .silent then s
    else s.modifyEngine fun e => { e with linkReply := e.linkReply ++ [item] }

/-! ## The release of notices (R174) -/

/-- Table 11.10, notice kinds. -/
def NoticeContent.kindCode : NoticeContent → Nat
  | .flowState _ _ _ _ => 1
  | .linkState _ _ _ => 2
  | .completion _ _ _ _ => 3
  | .poolLow _ => 4

/-- R174: the tag of a notice, 0 but for COMPLETION. -/
def NoticeContent.tag : NoticeContent → Tag
  | .completion tag _ _ _ => tag
  | .flowState _ _ _ _ | .linkState _ _ _ | .poolLow _ => 0

/-- R174: the request code of a notice, 0 but for COMPLETION (Table 11.3). -/
def NoticeContent.requestCode : NoticeContent → Byte
  | .completion _ code _ _ => code
  | .flowState _ _ _ _ | .linkState _ _ _ | .poolLow _ => 0

/-- 11.3 "Notice bodies": the rest of a body, by kind. -/
def NoticeContent.bytes : NoticeContent → List Byte
  | .flowState f old new cause =>
    beBytes 1 f.val ++ beBytes 1 (FlowState.code old) ++ beBytes 1 (FlowState.code new) ++
      beBytes 1 (FlowCause.code cause)
  | .linkState old new cause =>
    beBytes 1 (LinkState.code old) ++ beBytes 1 (LinkState.code new) ++ beBytes 1 (LinkCause.code cause)
  | .completion _ _ outcome detail =>
    beBytes 1 (Completion.code outcome) ++ beBytes 1 (detailCode detail)
  | .poolLow free => beBytes 2 free

/-- R174, 11.3: the notice frame formed from a queued notice for a manager. Log entry 30, DESIGN CHOICE,
unsafe: flag bits 1 to 7 of its body, which no table names, are sent clear. -/
def State.noticeFrame (s : State) (n : Notice) (manager : Address) : Frame :=
  formManagement manager s.params.stationAddress s.unitId kindNotice n.content.tag
    n.content.requestCode n.content.kindCode
    (beBytes 1 (bitOf s.notices.overrun 0) ++ beBytes 2 (n.transitions.getD 0) ++ n.content.bytes)

/-- R174: one release, of the oldest notice with no held mark; none when a condition fails. -/
def State.releaseNotice (s : State) : Option State :=
  match s.engine.binding with
  | .unbound => none
  | .bound manager origin _ _ =>
    if s.pathRoom 4 2 origin then
      match s.notices.queue.find? (·.held.isNone) with
      | none => none
      | some n =>
        some ((s.modifyNotices fun ns =>
          { ns with queue := ns.queue.eraseP (·.held.isNone), overrun := false }).placeReply origin
            ⟨s.noticeFrame n manager, false⟩)
    else none

/-- R174: releases one after another until one condition fails, at most `n` of them. -/
def State.releaseUpTo : Nat → State → State
  | 0, s => s
  | n + 1, s =>
    match s.releaseNotice with
    | none => s
    | some s' => State.releaseUpTo n s'

/-- R174. -/
def State.releaseNotices (s : State) : State := s.releaseUpTo s.notices.queue.length

/-! ## The link transmitter (R133, R140) -/

/-- R82: the keepalive timer restarts while the partnership is PARTNERED. -/
def State.restartKeepalive (s : State) : State :=
  if s.part.state = .partnered then
    s.modifyPart fun p => { p with keepaliveTimer := .running s.params.keepaliveInterval }
  else s

/-- R140: a block is presented to the transceiver. The slot is consumed, the keepalive timer restarts
while PARTNERED, and blocks transmitted rises. -/
def State.present (s : State) (b : LinkBlock) (owner : LinkOwner) : State :=
  ((s.modifyLink fun l =>
    { l with transmitter := .sending owner (formBlock b), slotSignal := false }).restartKeepalive).countDevice
      fun c => { c with blocksTransmitted := c.blocksTransmitted + 1 }

/-- R133, R139: in SLOT_OPEN with no grant in transit the scheduler selects, and sends the grant. Log entry 31, DESIGN
CHOICE, unsafe: the last row of R116's table has a frame that joins the link bulk queue after a slot found bulk empty wait
for a later slot; R133, which selects again for the still open slot, is followed instead. -/
def State.select (s : State) : State :=
  if s.link.transmitter = .slotOpen ∧ s.link.grant = none then
    s.modifyLink fun l => { l with grant := s.selection }
  else s

/-! ## The partnership (section 4) -/

/-- R89: a change of the partnership's state, with the LINK_STATE cause it raises. -/
def State.changeLinkState (s : State) (new : LinkState) (cause : LinkCause) : State :=
  (s.modifyPart fun p => { p with state := new }).raiseCause (.linkState s.part.state new cause)

/-- R81: the silence timer restarts with the silence limit. -/
def State.restartSilence (s : State) : State :=
  s.modifyPart fun p => { p with silenceTimer := .running s.params.silenceLimit }

/-- The completion of a deferred join (R73), if one is held. -/
def State.completeJoin (s : State) (outcome : Completion) : State :=
  match s.part.deferredJoin with
  | none => s
  | some tag =>
    (s.modifyPart fun p => { p with deferredJoin := none }).raiseCause
      (.completion tag codeLinkJoin outcome none)

/-- R72: a new own epoch from the random source (log entry 1): any 32-bit value other than the one that it
replaces. -/
def State.drawEpoch (s : State) : State :=
  let drawn := Config.drawnEpoch s.epochDraws
  { s with
    part := { s.part with
      ownEpoch := some (if s.part.ownEpoch = some drawn then drawn + 1 else drawn) }
    epochDraws := s.epochDraws + 1 }

/-! ## RESTART (R166, R167) -/

/-- R91, R141: a block in transmission when a restart is applied is sent to its end, which then releases
nothing. -/
def LinkTransmitter.abandon : LinkTransmitter → LinkTransmitter
  | .sending _ bytes => .sending .plain bytes
  | .idle => .idle
  | .slotOpen => .slotOpen

/-- R91, R147: a frame in transmission when a restart is applied is sent to its end, which then releases
nothing and changes no queue. -/
def WireTransmitter.abandon : WireTransmitter → WireTransmitter
  | .sending _ bytes => .sending .abandoned bytes
  | .idle => .idle

/-- R167: the application of a RESTART to every block of the part. -/
def State.applyRestart (s : State) : State :=
  { s with
    flows := tabulate fun f => Flow.initial (s.profile f).rtoBase
    pool := Pool.initial
    wire := { WirePort.initial with
      transmitter := s.wire.transmitter.abandon
      linkUp := s.wire.linkUp }
    link := { s.link with
      transmitter := s.link.transmitter.abandon
      lifecycleOrder := []
      statusPosition := 0
      dataPositions := Vector.replicate 4 0
      bulkCredit := 0
      bulkQueue := [] }
    part := Partnership.initial
    hits := Vector.replicate 128 0
    engine := Engine.initial
    notices := { s.notices with queue := [], overrun := false }
    flowCounters := Vector.replicate 64 FlowCounters.zero
    deviceCounters := DeviceCounters.zero }

/-- R166: the RESTART response has left its reply path. -/
def State.responseDeparted (s : State) : State :=
  if s.part.state = .partnered ∨ s.part.state = .lost then
    (s.modifyPart fun p => { p with leavePending := p.ownEpoch }).modifyEngine fun e =>
      { e with state := .awaitLeave }
  else s.applyRestart

/-- R152: how many frames at the head of the link reply queue a grant has taken. -/
def LinkTransmitter.repliesTaken : LinkTransmitter → Nat
  | .sending .linkReply _ => 1
  | .sending .plain _ | .sending .bulkBuffer _ | .sending .restartLeave _ | .idle | .slotOpen => 0

/-- R152: on entry of the partnership to SILENT every frame of the link reply queue that no grant has
taken is discarded unsent; the discarding of the RESTART response is its departure (R166). -/
def State.discardReplies (s : State) : State :=
  let taken := s.link.transmitter.repliesTaken
  let s' := s.modifyEngine fun e => { e with linkReply := e.linkReply.take taken }
  if (s.engine.linkReply.drop taken).any (·.restartResponse) then s'.responseDeparted else s'

/-! ## The end of a happening -/

/-- What follows every happening that has an effect: notices are released while the conditions of R174
hold, and an open slot is selected for if no grant is in transit (R133). -/
def State.finish (s : State) : State := s.releaseNotices.select

/-- One millisecond passes at a flow: a suspended flow's retransmission and ack delay timers are frozen
(R19, R41). -/
def Flow.tick (fl : Flow) : Flow :=
  if fl.suspended then { fl with openTimer := fl.openTimer.tick }
  else { fl with
    openTimer := fl.openTimer.tick
    retxTimer := fl.retxTimer.tick
    ackTimer := fl.ackTimer.tick }

/-- One millisecond passes at the partnership. -/
def Partnership.tick (p : Partnership) : Partnership :=
  { p with
    joinTimer := p.joinTimer.tick
    helloTimer := p.helloTimer.tick
    silenceTimer := p.silenceTimer.tick
    keepaliveTimer := p.keepaliveTimer.tick
    holdTimer := p.holdTimer.tick }

/-- One millisecond passes at the binding's lease timer. -/
def Binding.tick : Binding → Binding
  | .unbound => .unbound
  | .bound manager origin lease remaining => .bound manager origin lease (remaining - 1)

/-- One millisecond passes with no command waiting (log entry 6): every running timer has one
millisecond less remaining. -/
def State.tick (s : State) : State :=
  { s with
    flows := tabulate fun f => (s.flow f).tick
    part := s.part.tick
    engine := { s.engine with binding := s.engine.binding.tick } }

end Sys2Proof.Machine
end

