-- ==== Sys2Proof/Machine/Sender.lean ====
section
/-! DEFINITION. The sender half of a flow (section 1): STATUS received, data grants, the retransmission
timer. -/

namespace Sys2Proof.Machine

/-! ## STATUS received (R11 to R16) -/

/-- R12: the buffers that a cumulative acknowledgement releases. -/
def Flow.releasedBuffers (fl : Flow) (a : Seq) : Nat :=
  fl.window.countP fun e => seqBefore e.seq a && e.holdsBuffer

/-- R12: every entry whose sequence is before A leaves the window and the list, and L becomes A. -/
def Flow.release (fl : Flow) (a : Seq) : Flow :=
  { fl with
    window := fl.window.filter fun e => !seqBefore e.seq a
    txOrder := fl.txOrder.filter fun q => !seqBefore q a
    lower := a }

/-- The retransmission timer restarted with the current RTO if an entry is in flight, else stopped. -/
def Flow.restartRetx (fl : Flow) : Flow :=
  { fl with retxTimer := if fl.anyInFlight then .running fl.rto else .stopped }

/-- R13: if L moved, the current RTO returns to the base and the timer restarts or stops. -/
def Flow.resetAfterAdvance (fl : Flow) (oldLower : Seq) (rtoBase : Nat) : Flow :=
  if fl.lower = oldLower then fl else Flow.restartRetx { fl with rto := rtoBase }

/-- R14: an OUTSTANDING or PENDING_RETX entry becomes SACKED. -/
def WindowEntry.sack (e : WindowEntry) : WindowEntry :=
  match e.condition with
  | .outstanding frame | .pendingRetx frame => { e with condition := .sacked frame }
  | .sacked _ | .skipped _ => e

/-- R14: the position of the map for a sequence is set; positions are 1..63 from A. -/
def mapSet (a : Seq) (map : BitVec 64) (q : Seq) : Bool :=
  1 ≤ seqDistance a q && seqDistance a q ≤ 63 && map.getLsbD (seqDistance a q)

/-- R14. -/
def Flow.markSelective (fl : Flow) (a : Seq) (map : BitVec 64) : Flow :=
  { fl with window := fl.window.map fun e => if mapSet a map e.seq then e.sack else e }

/-- R15, R18, R67: an in-flight entry marked lost; transmissions and list position are unchanged. -/
def WindowEntry.lose (e : WindowEntry) : WindowEntry :=
  match e.condition with
  | .outstanding frame => { e with condition := .pendingRetx frame }
  | .skipped .sent => { e with condition := .skipped .due }
  | .sacked _ | .pendingRetx _ | .skipped .due => e

/-- R15: the sequences that stand before H's entry in the transmission-order list. -/
def Flow.sentBefore (fl : Flow) (h : Seq) : List Seq := fl.txOrder.takeWhile (· ≠ h)

/-- R15: if the window holds an entry for H, every entry in flight, before H and standing before H's
entry in the list is marked lost. -/
def Flow.markBelowHigh (fl : Flow) (high : Option Seq) : Flow :=
  match high with
  | none => fl
  | some h =>
    if fl.window.any (·.seq == h) then
      { fl with window := fl.window.map fun e =>
          if e.inFlight && seqBefore e.seq h && (fl.sentBefore h).contains e.seq then e.lose else e }
    else fl

/-- R16: if no entry is in flight the timer stops, but in CLOSING it serves the CLOSE series. -/
def Flow.stopIfIdle (fl : Flow) : Flow :=
  if fl.state = .closing ∨ fl.anyInFlight then fl else { fl with retxTimer := .stopped }

/-- R12 to R16 in their order. -/
def Flow.takeStatus (fl : Flow) (rtoBase : Nat) (a : Seq) (map : BitVec 64) (high : Option Seq) : Flow :=
  ((((fl.release a).resetAfterAdvance fl.lower rtoBase).markSelective a map).markBelowHigh
    high).stopIfIdle

/-- R11: stale when the distance from L to A exceeds the distance from L to N. -/
def Flow.statusStale (fl : Flow) (a : Seq) : Bool := seqDistance fl.lower fl.next < seqDistance fl.lower a

/-- R11 to R16 and R58 for a STATUS at a flow in OPEN, DRAINING or CLOSING; R65 in the other states. Log entry 13,
DEDUCED, unsafe: where the release of R12 ends a drain of origin PEER, the pool is tested after that release and again
after the entry to CLOSED; R98 and R100 leave open whether their one happening has one low-pool test or two. -/
def State.statusAtFlow (s : State) (f : FlowId) (a : Seq) (map : BitVec 64) (high : Option Seq) : State :=
  match (s.flow f).state with
  | .closed | .failed => s
  | .opening => s.countStale
  | .opened | .draining | .closing =>
    if (s.flow f).statusStale a then
      s.countFlow f fun c => { c with statusStale := c.statusStale + 1 }
    else
      let released := (s.flow f).releasedBuffers a
      let s := s.modifyFlow f (·.takeStatus (s.profile f).rtoBase a map high)
      (s.releaseFlow f released).completeDrain f

/-! ## The current RTO and the retransmission timer (R17, R18) -/

/-- R17: twice the value or the cap, whichever is smaller; the cap is the RTO base times 2 to the
backoff limit. -/
def doubledRto (p : Profile) (rto : Nat) : Nat := min (2 * rto) (p.rtoBase * 2 ^ p.backoffLimit)

/-- R18 step 1: the sequence of the in-flight entry that stands first in the list. -/
def Flow.oldestInFlight (fl : Flow) : Option Seq :=
  fl.txOrder.find? fun q => fl.window.any fun e => e.seq == q && e.inFlight

/-- A change of the window entry for a sequence. -/
def Flow.modifyEntry (fl : Flow) (q : Seq) (g : WindowEntry → WindowEntry) : Flow :=
  { fl with window := fl.window.map fun e => if e.seq = q then g e else e }

/-- R18 step 1. -/
def Flow.loseOldest (fl : Flow) : Flow :=
  match fl.oldestInFlight with
  | some q => fl.modifyEntry q (·.lose)
  | none => fl

/-- R18: the oldest unanswered entry is marked lost, the RTO doubles, and the timer restarts if an entry
is still in flight. -/
def Flow.retxExpired (fl : Flow) (p : Profile) : Flow :=
  let fl := fl.loseOldest
  Flow.restartRetx { fl with rto := doubledRto p fl.rto }

/-! ## Data grants (R8, R9, R20 to R22) -/

/-- R6: an entry transmitted again moves to the end of the list; a new one joins it. -/
def Flow.moveToEnd (fl : Flow) (q : Seq) : Flow :=
  { fl with txOrder := fl.txOrder.filter (· ≠ q) ++ [q] }

/-- R9, R20, R22: the timer starts with the current RTO if it is stopped. -/
def Flow.startRetx (fl : Flow) : Flow := { fl with retxTimer := fl.retxTimer.startIfStopped fl.rto }

/-- R9: the head of the send queue becomes the window entry for N. -/
def Flow.takeNew (fl : Flow) (frame : Frame) (rest : List Frame) : Flow :=
  Flow.startRetx { fl with
    sendQueue := rest
    window := fl.window ++ [⟨fl.next, .outstanding frame, 1⟩]
    txOrder := fl.txOrder ++ [fl.next]
    next := fl.next + 1 }

/-- R20: a due entry is sent again. -/
def WindowEntry.resend (e : WindowEntry) : WindowEntry :=
  match e.condition with
  | .pendingRetx frame =>
    { e with condition := .outstanding frame, transmissions := e.transmissions + 1 }
  | .skipped .due => { e with condition := .skipped .sent, transmissions := e.transmissions + 1 }
  | .outstanding _ | .sacked _ | .skipped .sent => e

/-- R20. -/
def Flow.resend (fl : Flow) (q : Seq) : Flow :=
  ((fl.modifyEntry q (·.resend)).moveToEnd q).startRetx

/-- R22 steps 2, 4 and 5: the entry becomes SKIPPED, SENT, with transmissions 1. -/
def Flow.skip (fl : Flow) (q : Seq) : Flow :=
  ((fl.modifyEntry q fun e =>
    { e with condition := .skipped .sent, transmissions := 1 }).moveToEnd q).startRetx

/-- R10, R20, R22: the block that a grant sends for a window entry: DATA with its frame, or ADVANCE. -/
def WindowEntry.block (f : FlowId) (e : WindowEntry) : BlockBody :=
  match e.condition with
  | .outstanding frame | .sacked frame | .pendingRetx frame => .data f e.seq frame
  | .skipped _ => .advance f e.seq

/-- R137, R138: the scheduler's state after a data grant taken by a flow in a class. -/
def LinkPort.dataTaken (l : LinkPort) (f : FlowId) (cls : PortClass) : LinkPort :=
  { l with
    dataPositions := writeAt l.dataPositions cls (f + 1)
    bulkCredit := if l.bulkCredit < 15 then l.bulkCredit + 1 else l.bulkCredit }

/-- R140: a data grant taken, sending one block. -/
def State.sendData (s : State) (f : FlowId) (cls : PortClass) (epoch : Epoch) (body : BlockBody) : State :=
  (s.present ⟨epoch, body⟩ .plain).modifyLink (·.dataTaken f cls)

/-- R9: a data grant taken as new data. -/
def State.sendNew (s : State) (f : FlowId) (cls : PortClass) (epoch : Epoch) (frame : Frame)
    (rest : List Frame) : State :=
  let body := BlockBody.data f (s.flow f).next frame
  ((s.modifyFlow f (·.takeNew frame rest)).sendData f cls epoch body).countFlow f fun c =>
    { c with dataSent := c.dataSent + 1 }

/-- R20: a data grant that sends a due entry again. -/
def State.sendAgain (s : State) (f : FlowId) (cls : PortClass) (epoch : Epoch) (e : WindowEntry) : State :=
  ((s.modifyFlow f (·.resend e.seq)).sendData f cls epoch (e.block f)).countFlow f fun c =>
    { c with dataRetransmitted := c.dataRetransmitted + 1 }

/-- R22: a data grant that converts an exhausted entry to SKIPPED and sends an ADVANCE for it. -/
def State.sendSkip (s : State) (f : FlowId) (cls : PortClass) (epoch : Epoch) (e : WindowEntry) : State :=
  let s := s.releaseFlow f 1
  ((s.modifyFlow f (·.skip e.seq)).sendData f cls epoch (.advance f e.seq)).countFlow f fun c =>
    { c with skipped := c.skipped + 1 }

/-- R21, R63: the flow fails with RETRY_EXHAUSTED and an ABORT becomes its pending block; the grant is
not consumed. -/
def State.exhaust (s : State) (f : FlowId) : State :=
  (s.makePending f .abort).failFlow f .retryExhausted true fun _ => (.aborted, some .retryExhausted)

/-- 1.7: a data grant that serves a due entry. -/
def State.serveDue (s : State) (f : FlowId) (cls : PortClass) (epoch : Epoch) (e : WindowEntry) : State :=
  if e.transmissions < 1 + (s.profile f).retryLimit then s.sendAgain f cls epoch e
  else
    match e.condition, (s.profile f).exhaustion with
    | .pendingRetx _, .skip => s.sendSkip f cls epoch e
    | _, _ => s.exhaust f

/-- R8: a data grant at a flow that offers data: the lowest due entry, else new data. -/
def State.serveData (s : State) (f : FlowId) (cls : PortClass) (epoch : Epoch) : State :=
  match (s.flow f).firstDue with
  | some e => s.serveDue f cls epoch e
  | none =>
    match (s.flow f).sendQueue with
    | frame :: rest => s.sendNew f cls epoch frame rest
    | [] => s

/-- R8, R139: a data grant reaching its flow is taken in the flow's state at that moment, or declined;
a declined grant leaves the slot open for a new selection. -/
def State.dataGrantAt (s : State) (f : FlowId) (cls : PortClass) : State :=
  match s.carrierEpoch with
  | none => s
  | some epoch => if s.offersData f then s.serveData f cls epoch else s

/-! ## Commands -/

/-- DATA_GRANT (R8): the grant in transit reaches its flow. With no data grant in transit (the slot was
withdrawn, R139, or none was sent) nothing changes. -/
def execDataGrant (s : State) : Host.Outcome State Fault Refusal :=
  match s.link.grant with
  | some (.data f cls) =>
    .next ((s.modifyLink fun l => { l with grant := none }).dataGrantAt f cls).finish
  | _ => .next s

/-- RETRANSMISSION_TIMER_EXPIRY (R18): in OPEN or DRAINING, not suspended (R19), with the timer run out. -/
def execRetransmissionTimerExpiry (f : FlowId) (s : State) : Host.Outcome State Fault Refusal :=
  let fl := s.flow f
  if (fl.state = .opened ∨ fl.state = .draining) ∧ fl.suspended = false ∧ fl.retxTimer.hasRunOut then
    .next (s.modifyFlow f (·.retxExpired (s.profile f))).finish
  else .next s

end Sys2Proof.Machine
end

