-- ==== Sys2Proof/Machine/Receiver.lean ====
section
/-! DEFINITION. The receiver half of a flow (section 2): DATA and ADVANCE received, the ack delay timer, STATUS
formed at a grant. -/

namespace Sys2Proof.Machine

/-! ## The reorder set (R27, R30, R39) -/

/-- The set is kept in order of distance from E. -/
def insertMember (e : Seq) (m : Member) : List Member → List Member
  | [] => [m]
  | x :: rest =>
    if seqDistance e m.seq < seqDistance e x.seq then m :: x :: rest
    else x :: insertMember e m rest

def Flow.hasMember (fl : Flow) (q : Seq) : Bool := fl.reorder.any (·.seq == q)

/-- R30: what an in-order run leaves and delivers. -/
structure InOrderRun where
  expected : Seq
  reorder : List Member
  delivered : List Frame
  removed : Nat
  deriving DecidableEq, Repr

/-- R30: while the set holds a member at E it is taken and E advances by one. The set is ordered by
distance from E (Table 2.1), so a member at E stands first. -/
def inOrderRun : Seq → List Member → InOrderRun
  | e, [] => ⟨e, [], [], 0⟩
  | e, m :: rest =>
    if m.seq = e then
      let run := inOrderRun (e + 1) rest
      { run with
        delivered := (match m.kind with
          | .frame frame => [frame]
          | .skip | .delivered => []) ++ run.delivered
        removed := run.removed + 1 }
    else ⟨e, m :: rest, [], 0⟩

/-- R29, R31, R38: E advances by one, and the in-order run of R30 follows. -/
def Flow.advance (fl : Flow) : InOrderRun := inOrderRun (fl.expected + 1) fl.reorder

/-- R30: the receiver fields after an in-order run; removing a member sets status pending. -/
def Flow.afterRun (fl : Flow) (run : InOrderRun) : Flow :=
  { fl with
    expected := run.expected
    reorder := run.reorder
    statusPending := fl.statusPending || 0 < run.removed }

/-- R37: frames placed on the wire egress one after another. -/
def State.deliverAll (s : State) (f : FlowId) (frames : List Frame) : State :=
  frames.foldl (fun s frame => s.deliver f frame) s

/-- R30: E advances and the in-order run delivers. -/
def State.advanceExpected (s : State) (f : FlowId) : State :=
  let run := (s.flow f).advance
  (s.modifyFlow f (·.afterRun run)).deliverAll f run.delivered

/-- R40, R41: data since status rises up to 32 and is held against ack every; the ack delay timer starts
if it is stopped. -/
def Flow.acceptData (fl : Flow) (p : Profile) : Flow :=
  let since := if fl.dataSince < 32 then fl.dataSince + 1 else fl.dataSince
  { fl with
    dataSince := since
    statusPending := fl.statusPending || p.ackEvery ≤ since
    ackTimer := fl.ackTimer.startIfStopped p.ackDelay }

def State.acceptData (s : State) (f : FlowId) : State := s.modifyFlow f (·.acceptData (s.profile f))

def State.setStatusPending (s : State) (f : FlowId) : State :=
  s.modifyFlow f fun fl => { fl with statusPending := true }

def State.countRxRefused (s : State) (f : FlowId) : State :=
  s.countFlow f fun c => { c with rxRefused := c.rxRefused + 1 }

def State.countOutOfWindow (s : State) (f : FlowId) : State :=
  s.countFlow f fun c => { c with rxOutOfWindow := c.rxOutOfWindow + 1 }

/-- A member joins the set at its place in distance order. -/
def State.insertMember (s : State) (f : FlowId) (m : Member) : State :=
  s.modifyFlow f fun fl => { fl with reorder := Machine.insertMember fl.expected m fl.reorder }

/-! ## DATA (R28 to R36, R65) -/

/-- R29, R31: a DATA at E. -/
def State.dataInOrder (s : State) (f : FlowId) (frame : Frame) : State :=
  match s.grantFlow f with
  | none => s.countRxRefused f
  | some s => ((s.deliver f frame).advanceExpected f).acceptData f

/-- R32, R33: an early DATA with no member at its sequence. -/
def State.dataEarly (s : State) (f : FlowId) (q : Seq) (frame : Frame) : State :=
  match s.grantFlow f with
  | none => s.countRxRefused f
  | some s =>
    let s := match (s.profile f).order with
      | .inOrder => s.insertMember f ⟨q, .frame frame⟩
      | .arrival => (s.deliver f frame).insertMember f ⟨q, .delivered⟩
    (s.setStatusPending f).acceptData f

/-- R34, R35: a duplicate or old DATA. -/
def State.dataDuplicate (s : State) (f : FlowId) : State :=
  (s.countFlow f fun c => { c with rxDuplicate := c.rxDuplicate + 1 }).setStatusPending f

/-- R28: a DATA at a flow in OPEN, DRAINING or CLOSING, sorted by its distance from E and by the set. -/
def State.sortData (s : State) (f : FlowId) (q : Seq) (frame : Frame) : State :=
  let d := seqDistance (s.flow f).expected q
  if d = 0 then s.dataInOrder f frame
  else if d < (s.profile f).window then
    if (s.flow f).hasMember q then s.dataDuplicate f else s.dataEarly f q frame
  else if d ≤ 2048 then s.countOutOfWindow f
  else s.dataDuplicate f

/-- R65: DATA or ADVANCE at a CLOSED flow draws an ABORT; at an OPENING flow it is stale; at a FAILED
flow it is ignored. -/
def State.dataElsewhere (s : State) (f : FlowId) : State :=
  match (s.flow f).state with
  | .closed => s.makePending f .abort
  | .opening => s.countStale
  | .failed | .opened | .draining | .closing => s

/-- R28, R65. -/
def State.dataAtFlow (s : State) (f : FlowId) (q : Seq) (frame : Frame) : State :=
  if (s.flow f).takesBlocks then s.sortData f q frame else s.dataElsewhere f

/-! ## ADVANCE (R38, R65) -/

/-- R38: an ADVANCE at a flow in OPEN, DRAINING or CLOSING; in every case status pending becomes yes. -/
def State.sortAdvance (s : State) (f : FlowId) (q : Seq) : State :=
  let d := seqDistance (s.flow f).expected q
  let s' :=
    if d = 0 then s.advanceExpected f
    else if d < (s.profile f).window then
      if (s.flow f).hasMember q then s else s.insertMember f ⟨q, .skip⟩
    else if d ≤ 2048 then s.countOutOfWindow f
    else s
  s'.setStatusPending f

/-- R38, R65. -/
def State.advanceAtFlow (s : State) (f : FlowId) (q : Seq) : State :=
  if (s.flow f).takesBlocks then s.sortAdvance f q else s.dataElsewhere f

/-! ## STATUS formed (R39, R43) -/

/-- R43: position k (1..63) is set when the set holds a member for E + k. -/
def Flow.selectiveMap (fl : Flow) : BitVec 64 :=
  BitVec.ofFnLE fun k : Fin 64 => k.val ≠ 0 && fl.hasMember (fl.expected + BitVec.ofNat 12 k.val)

/-- R39: the member at the greatest distance from E, which stands last. -/
def Flow.highMark (fl : Flow) : Option Seq := fl.reorder.getLast?.map (·.seq)

/-- R43. -/
def Flow.statusBlock (f : FlowId) (fl : Flow) : BlockBody :=
  .status f fl.expected fl.selectiveMap fl.highMark

/-- R43: forming the block clears status pending, resets data since status and stops the timer. -/
def Flow.statusSent (fl : Flow) : Flow :=
  { fl with statusPending := false, dataSince := 0, ackTimer := .stopped }

/-- R42, R43, R136: a STATUS grant reaching its flow. -/
def State.statusGrantAt (s : State) (f : FlowId) : State :=
  match s.carrierEpoch with
  | none => s
  | some epoch =>
    if (s.flow f).offersStatus then
      let body := Flow.statusBlock f (s.flow f)
      ((s.modifyFlow f (·.statusSent)).present ⟨epoch, body⟩ .plain).modifyLink fun l =>
        { l with statusPosition := f + 1 }
    else s

/-! ## Commands -/

/-- STATUS_GRANT (R43): the grant in transit reaches its flow. With no STATUS grant in transit nothing
changes (R139). -/
def execStatusGrant (s : State) : Host.Outcome State Fault Refusal :=
  match s.link.grant with
  | some (.status f) =>
    .next ((s.modifyLink fun l => { l with grant := none }).statusGrantAt f).finish
  | _ => .next s

/-- ACK_DELAY_TIMER_EXPIRY (R41): status pending becomes yes and the timer stays stopped. A suspended
flow's timer is frozen. -/
def execAckDelayTimerExpiry (f : FlowId) (s : State) : Host.Outcome State Fault Refusal :=
  let fl := s.flow f
  if fl.suspended = false ∧ fl.ackTimer.hasRunOut then
    .next (s.modifyFlow f fun fl => { fl with statusPending := true, ackTimer := .stopped }).finish
  else .next s

end Sys2Proof.Machine
end

