-- ==== Sys2Proof/Machine/Lifecycle.lean ====
section
/-! DEFINITION. The flow lifecycle (section 3): opening, closing, abort and reset, lifecycle blocks received,
lifecycle grants, the open and close series, and the effects of partnership events on flows. -/

namespace Sys2Proof.Machine

/-! ## Opening (R52 to R56) -/

/-- R52, R54: a reservation made, the sender and receiver fields reinitialised; none when the pool
refuses the reservation. -/
def State.prepareOpening (s : State) (f : FlowId) : Option State :=
  (s.reserveFlow f).map fun s => s.modifyFlow f (·.reinitialised (s.profile f).rtoBase)

/-- R54: an OPEN received for a CLOSED flow, checked in order. -/
def State.openAtClosed (s : State) (f : FlowId) (window : Nat) (order : OrderMode) : State :=
  let p := s.profile f
  if p.mode = .disabled then s.makePending f (.openAck .notReliable)
  else if window ≠ p.window ∨ order ≠ p.order then s.makePending f (.openAck .profileMismatch)
  else
    match s.prepareOpening f with
    | none => s.makePending f (.openAck .noBuffers)
    | some s => (s.makePending f (.openAck .accept)).changeFlowState f .opened .peerOpen

/-- The completion of a flow's deferred request at a transition that is no entry to CLOSED or FAILED; the
request is no longer held. -/
def State.completeDeferred (s : State) (f : FlowId) (outcome : Completion) : State :=
  (s.modifyFlow f fun fl => { fl with deferred := none }).complete (s.flow f).deferred
    (plainOutcome outcome)

/-- R55, OPENING: crossed opens. -/
def State.openCrossed (s : State) (f : FlowId) (window : Nat) (order : OrderMode) : State :=
  let p := s.profile f
  if window = p.window ∧ order = p.order then
    let s := s.modifyFlow f fun fl => { fl with openTimer := .stopped }
    ((s.makePending f (.openAck .accept)).changeFlowState f .opened .peerOpen).completeDeferred f .done
  else s.makePending f (.openAck .profileMismatch)

/-- R54, R55. -/
def State.openAtFlow (s : State) (f : FlowId) (window : Nat) (order : OrderMode) : State :=
  match (s.flow f).state with
  | .closed => s.openAtClosed f window order
  | .opening => s.openCrossed f window order
  | .opened => s.makePending f (.openAck .accept)
  | .draining | .closing => s.countStale
  | .failed => s.makePending f .abort

/-- R56: the pending OPEN, if it is an OPEN, is cleared. -/
def State.clearOpen (s : State) (f : FlowId) : State :=
  match (s.flow f).pendingBlock with
  | some (.openFlow _ _) => s.clearPending f
  | _ => s

/-- R56, OPEN_ACK(accept). -/
def State.acceptanceAtFlow (s : State) (f : FlowId) : State :=
  match (s.flow f).state with
  | .opening =>
    let s := s.modifyFlow f fun fl => { fl with openTimer := .stopped }
    ((s.clearOpen f).changeFlowState f .opened .openAccepted).completeDeferred f .done
  | .closed => s.makePending f .abort
  | .opened => s
  | .draining | .closing | .failed => s.countStale

/-- R56, OPEN_ACK with a refusal verdict. -/
def State.refusalAtFlow (s : State) (f : FlowId) (verdict : Verdict) : State :=
  match (s.flow f).state with
  | .opening =>
    s.closeFlow f .openRefused false fun _ => (.refused, Verdict.reason verdict)
  | .closed | .opened | .draining | .closing | .failed => s.countStale

/-- R56. -/
def State.openAckAtFlow (s : State) (f : FlowId) (verdict : Verdict) : State :=
  if verdict = .accept then s.acceptanceAtFlow f else s.refusalAtFlow f verdict

/-! ## Closing (R57 to R61) -/

/-- R60. -/
def State.closeAtFlow (s : State) (f : FlowId) : State :=
  match (s.flow f).state with
  | .opened =>
    let s := s.modifyFlow f fun fl => { fl with drainOrigin := some .peerEnd }
    (s.changeFlowState f .draining .peerClose).completeDrain f
  | .draining =>
    if (s.flow f).drainOrigin = some .localEnd then
      let s := s.modifyFlow f fun fl => { fl with drainOrigin := some .peerEnd }
      (s.completeDeferred f .done).completeDrain f
    else s
  | .closing | .closed => s.makePending f .closeAck
  | .opening | .failed => s

/-- R51 step 4: a CLOSE_ACK that a CLOSING flow owes the partner stays pending at its entry to CLOSED. -/
def State.owesCloseAck (s : State) (f : FlowId) : Bool := (s.flow f).pendingBlock == some .closeAck

/-- R61. -/
def State.closeAckAtFlow (s : State) (f : FlowId) : State :=
  if (s.flow f).state = .closing then
    s.closeFlow f .closeDone (s.owesCloseAck f) (plainOutcome .done)
  else s

/-! ## Abort (R63) -/

/-- R63: the outcome of a deferred request at an ABORT received. -/
def abortOutcome : DeferredCode → Completion × Option Detail
  | .flowOpen => (.refused, some .peerAbort)
  | .flowClose => (.aborted, some .peerAbort)

/-- R63. -/
def State.abortAtFlow (s : State) (f : FlowId) : State :=
  if (s.flow f).inUse then s.failFlow f .peerAbort false abortOutcome else s

/-! ## Lifecycle grants (R50, R53, R55, R59) -/

/-- The block that a pending lifecycle block becomes for its flow (Table 11.2). -/
def LifecycleBlock.body (f : FlowId) : LifecycleBlock → BlockBody
  | .openFlow window order => .openFlow f window order
  | .openAck verdict => .openAck f verdict
  | .close => .close f
  | .closeAck => .closeAck f
  | .abort => .abort f

/-- R53, R55, R59, R58: what follows at the flow when a grant has taken its pending block. An OPEN that
an OPEN_ACK displaced, and a CLOSE that a CLOSE_ACK displaced, show in a stopped timer (log entry 7). -/
def State.afterTaking (s : State) (f : FlowId) (b : LifecycleBlock) : State :=
  let fl := s.flow f
  match b with
  | .openFlow _ _ =>
    s.modifyFlow f fun fl => { fl with attempts := fl.attempts + 1, openTimer := .running 250 }
  | .close =>
    s.modifyFlow f fun fl => { fl with attempts := fl.attempts + 1, retxTimer := .running fl.rto }
  | .openAck _ =>
    if fl.state = .opening ∧ fl.openTimer = .stopped then s.makeOpenPending f
    else s.completeDrain f
  | .closeAck =>
    if fl.state = .closing ∧ fl.retxTimer = .stopped then s.makePending f .close
    else s.completeDrain f
  | .abort => s.completeDrain f

/-- R50, R135, R140: a lifecycle grant reaching its flow, which declines it when it holds no pending block
or no longer offers it. -/
def State.lifecycleGrantAt (s : State) (f : FlowId) : State :=
  match s.carrierEpoch with
  | none => s
  | some epoch =>
    if (s.flow f).suspended then s
    else
      match (s.flow f).pendingBlock with
      | none => s
      | some b =>
        ((s.clearPending f).present ⟨epoch, LifecycleBlock.body f b⟩ .plain).afterTaking f b

/-! ## Partnership events (R66 to R69) -/

/-- R66 at one flow: loss of the partner. -/
def State.lossAtFlow (s : State) (f : FlowId) : State :=
  match (s.flow f).state with
  | .opening => s.closeFlow f .partnerLost false (plainOutcome .partnerLost)
  | .opened | .draining | .closing => s.modifyFlow f fun fl => { fl with suspended := true }
  | .closed | .failed => s

/-- R67 steps 1 to 6 at a suspended flow. The ack delay timer resumes with its remaining time: it is no
longer frozen. -/
def Flow.resumed (fl : Flow) (rtoBase : Nat) : Flow :=
  { fl with
    suspended := false
    window := fl.window.map (·.lose)
    rto := rtoBase
    retxTimer := .stopped
    statusPending := true }

/-- R67 at one flow: regain with the same partner epoch. -/
def State.regainAtFlow (s : State) (f : FlowId) : State :=
  if (s.flow f).suspended then
    let s := s.modifyFlow f (·.resumed (s.profile f).rtoBase)
    if (s.flow f).state = .closing ∧ (s.flow f).pendingBlock = none then s.makePending f .close
    else s.completeDrain f
  else s

/-- R68: the outcome of a deferred request at a partner restart or hold expiry. -/
def endedOutcome (failure : FailureCause) : DeferredCode → Completion × Option Detail
  | .flowOpen => (.partnerLost, none)
  | .flowClose => (.aborted, some (FailureCause.detail failure))

/-- R68 at one flow: flows in use fail, an OPENING flow closes. -/
def State.partnershipEndAtFlow (failure : FailureCause) (s : State) (f : FlowId) : State :=
  match (s.flow f).state with
  | .opening => s.closeFlow f .partnerLost false (endedOutcome failure)
  | .opened | .draining | .closing => s.failFlow f failure false (endedOutcome failure)
  | .closed | .failed => s

/-- R69 at one flow: LEAVE received. -/
def State.leaveAtFlow (s : State) (f : FlowId) : State :=
  if (s.flow f).inUse then s.failFlow f .partnerLeft false (endedOutcome .partnerLeft) else s

/-- R69 at one flow: local LINK_LEAVE. -/
def State.localLeaveAtFlow (s : State) (f : FlowId) : State :=
  if (s.flow f).inUse then s.closeFlow f .localLeave false (plainOutcome .aborted) else s

/-! ## Commands -/

/-- LIFECYCLE_GRANT (R50): the grant in transit reaches its flow. With no lifecycle grant in transit
nothing changes (R139). -/
def execLifecycleGrant (s : State) : Host.Outcome State Fault Refusal :=
  match s.link.grant with
  | some (.lifecycle f) =>
    .next ((s.modifyLink fun l => { l with grant := none }).lifecycleGrantAt f).finish
  | _ => .next s

/-- R53: the open timer of an OPENING flow runs out. -/
def State.openTimerExpired (s : State) (f : FlowId) : State :=
  if (s.flow f).attempts < 4 then
    (s.modifyFlow f fun fl => { fl with openTimer := .stopped }).makeOpenPending f
  else s.closeFlow f .openTimeout false (plainOutcome .timeout)

/-- OPEN_TIMER_EXPIRY (R53). -/
def execOpenTimerExpiry (f : FlowId) (s : State) : Host.Outcome State Fault Refusal :=
  if (s.flow f).state = .opening ∧ (s.flow f).openTimer.hasRunOut then
    .next (s.openTimerExpired f).finish
  else .next s

/-- R59: the retransmission timer of a CLOSING flow runs out. -/
def State.closeSeriesExpired (s : State) (f : FlowId) : State :=
  let p := s.profile f
  if (s.flow f).attempts < 1 + p.retryLimit then
    (s.modifyFlow f fun fl => { fl with rto := doubledRto p fl.rto, retxTimer := .stopped }).makePending
      f .close
  else s.closeFlow f .closeUnconfirmed (s.owesCloseAck f) (plainOutcome .unconfirmed)

/-- CLOSE_SERIES_EXPIRY (R59): in CLOSING, not suspended (R19), with the timer run out. -/
def execCloseSeriesExpiry (f : FlowId) (s : State) : Host.Outcome State Fault Refusal :=
  let fl := s.flow f
  if fl.state = .closing ∧ fl.suspended = false ∧ fl.retxTimer.hasRunOut then
    .next (s.closeSeriesExpired f).finish
  else .next s

end Sys2Proof.Machine
end

