-- ==== Sys2Proof/Machine/Partnership.lean ====
section
/-! DEFINITION. The partnership controller (section 4): HELLO, LEAVE and KEEPALIVE received, partnership
grants, its five timers, joining and leaving. -/

namespace Sys2Proof.Machine

/-! ## Epoch acceptance (R88, R81) -/

/-- R88: PARTNERED, and the block's epoch equals the partner epoch. -/
def State.accepts (s : State) (epoch : Epoch) : Bool :=
  s.part.state == .partnered && s.part.partnerEpoch == some epoch

/-- R88, R81, R144: an accepted block restarts the silence timer before its destination takes it; one that
fails the test is stale. -/
def State.ifAccepted (s : State) (epoch : Epoch) (destination : State → State) : State :=
  if s.accepts epoch then destination s.restartSilence else s.countStale

/-! ## HELLO (R76 to R80) -/

/-- R77, R78, R79: the HELLO's seen epoch equals the own epoch. -/
def Partnership.confirms (p : Partnership) (seen : Option Epoch) : Bool :=
  seen.isSome && seen == p.ownEpoch

/-- R77: the partnership becomes PARTNERED by a handshake. -/
def State.handshake (s : State) : State :=
  let s := s.modifyPart fun p =>
    { p with
      joinTimer := .stopped
      helloTimer := .stopped
      silenceTimer := .running s.params.silenceLimit
      keepaliveTimer := .running s.params.keepaliveInterval
      repeatMark := false }
  (s.changeLinkState .partnered .handshake).completeJoin .done

/-- R77: a HELLO that passes the screen in JOINING. -/
def State.helloInJoining (s : State) (epoch : Epoch) (unit : Address) (seen : Option Epoch) : State :=
  let s := s.modifyPart fun p =>
    { p with partnerUnit := some unit, partnerEpoch := some epoch, helloPending := true }
  if s.part.confirms seen then s.handshake else s

/-- R80 steps 2 and 3: the fields at a partner restart. -/
def Partnership.restarted (p : Partnership) (epoch : Epoch) (joinLimit : Nat) : Partnership :=
  { p with
    partnerEpoch := some epoch
    silenceTimer := .stopped
    keepaliveTimer := .stopped
    holdTimer := .stopped
    keepalivePending := false
    joinTimer := .running (joinLimit * 1000)
    helloTimer := p.helloTimer.startIfStopped 200 }

/-- R80: the partner has restarted. The LINK_STATE cause precedes the flows' causes (R89). -/
def State.partnerRestart (s : State) (epoch : Epoch) (unit : Address) (seen : Option Epoch) : State :=
  let s := s.changeLinkState .joining .partnerRestart
  let s := (s.eachFlow (State.partnershipEndAtFlow .partnerRestart)).discardPending
  let s := s.modifyPart (·.restarted epoch s.params.joinLimit)
  s.helloInJoining epoch unit seen

/-- R78 rows 1 to 3: a HELLO with the partner epoch in PARTNERED. -/
def Partnership.heardHello (p : Partnership) (seen : Option Epoch) : Partnership :=
  if p.confirms seen then
    if p.repeatMark then { p with helloPending := true } else { p with repeatMark := true }
  else { p with helloPending := true }

/-- R79: the partnership is regained. -/
def State.regain (s : State) : State :=
  let s := s.changeLinkState .partnered .regained
  let s := s.modifyPart fun p =>
    { p with
      holdTimer := .stopped
      helloTimer := .stopped
      silenceTimer := .running s.params.silenceLimit
      keepaliveTimer := .running s.params.keepaliveInterval
      repeatMark := false
      helloPending := true }
  s.eachFlow State.regainAtFlow

/-- R78, R80: a HELLO that passes the screen in PARTNERED. -/
def State.helloInPartnered (s : State) (epoch : Epoch) (unit : Address) (seen : Option Epoch) : State :=
  if s.part.partnerEpoch = some epoch then
    (s.modifyPart (·.heardHello seen)).restartSilence
  else s.partnerRestart epoch unit seen

/-- R79, R80: a HELLO that passes the screen in LOST. -/
def State.helloInLost (s : State) (epoch : Epoch) (unit : Address) (seen : Option Epoch) : State :=
  if s.part.partnerEpoch = some epoch then
    if s.part.confirms seen then s.regain
    else s.modifyPart fun p => { p with helloPending := true }
  else s.partnerRestart epoch unit seen

/-- R76: the screen of a received HELLO, and its handling by state. -/
def State.helloAtPartnership (s : State) (epoch : Epoch) (unit : Address) (seen : Option Epoch) : State :=
  match s.part.state with
  | .silent => s.countStale
  | .joining =>
    if unit = s.unitId then s.countForeign
    else if s.params.expectedPartner.isSome ∧ s.params.expectedPartner ≠ some unit then s.countForeign
    else s.helloInJoining epoch unit seen
  | .partnered =>
    if unit = s.unitId ∨ s.part.partnerUnit ≠ some unit then s.countForeign
    else s.helloInPartnered epoch unit seen
  | .lost =>
    if unit = s.unitId ∨ s.part.partnerUnit ≠ some unit then s.countForeign
    else s.helloInLost epoch unit seen

/-! ## Leaving (R84, R86, R87) -/

/-- R84, R86, R87: every timer stopped, HELLO and KEEPALIVE not pending, no partner recorded. -/
def Partnership.withdrawn (p : Partnership) : Partnership :=
  { p with
    joinTimer := .stopped
    helloTimer := .stopped
    silenceTimer := .stopped
    keepaliveTimer := .stopped
    holdTimer := .stopped
    helloPending := false
    keepalivePending := false
    partnerEpoch := none
    partnerUnit := none }

/-- R87: an accepted LEAVE. -/
def State.partnerLeft (s : State) : State :=
  let s := s.changeLinkState .silent .partnerLeft
  let s := (s.eachFlow State.leaveAtFlow).discardPending
  (s.modifyPart (·.withdrawn)).discardReplies

/-- R87: a LEAVE is accepted in PARTNERED or LOST when it bears the partner epoch; otherwise it is stale. -/
def State.leaveAtPartnership (s : State) (epoch : Epoch) : State :=
  if (s.part.state = .partnered ∨ s.part.state = .lost) ∧ s.part.partnerEpoch = some epoch then
    s.partnerLeft
  else s.countStale

/-- R86: a LINK_LEAVE outside SILENT; a LEAVE is queued from PARTNERED or LOST. -/
def State.localLeave (s : State) : State :=
  let queued := if s.part.state = .joining then s.part.leavePending else s.part.ownEpoch
  let s := s.changeLinkState .silent .request
  let s := (s.eachFlow State.localLeaveAtFlow).discardPending
  let s := s.modifyPart fun p => { p.withdrawn with leavePending := queued }
  (s.completeJoin .aborted).discardReplies

/-! ## Grants (R74) -/

/-- R74: a LEAVE taken. In AWAIT_LEAVE it is the one that the RESTART waits for (R166). -/
def State.sendLeave (s : State) (epoch : Epoch) : State :=
  (s.modifyPart fun p => { p with leavePending := none }).present ⟨epoch, .leave⟩
    (if s.engine.state = .awaitLeave then .restartLeave else .plain)

/-- R74: a HELLO taken, which also clears the repeat mark. -/
def State.sendHello (s : State) (epoch : Epoch) : State :=
  (s.modifyPart fun p => { p with helloPending := false, repeatMark := false }).present
    ⟨epoch, .hello s.unitId s.part.partnerEpoch⟩ .plain

/-- R74: a KEEPALIVE taken. -/
def State.sendKeepalive (s : State) (epoch : Epoch) : State :=
  (s.modifyPart fun p => { p with keepalivePending := false }).present ⟨epoch, .keepalive⟩ .plain

/-- R74: a partnership grant takes the pending LEAVE, else HELLO, else KEEPALIVE; it is declined when none
is offered. -/
def State.partnershipGrantAt (s : State) : State :=
  match s.part.leavePending, s.part.ownEpoch with
  | some epoch, _ => s.sendLeave epoch
  | none, some epoch =>
    if s.part.offersHello then s.sendHello epoch
    else if s.part.offersKeepalive then s.sendKeepalive epoch
    else s
  | none, none => s

/-! ## Commands -/

/-- HELLO_RECEIVED (R76): the first block routed to the partnership controller, a HELLO, reaches it. -/
def execHelloReceived (s : State) : Host.Outcome State Fault Refusal :=
  match s.link.toPartnership with
  | ⟨epoch, .hello unit seen⟩ :: rest =>
    .next ((s.modifyLink fun l => { l with toPartnership := rest }).helloAtPartnership epoch unit
      seen).finish
  | _ => .next s

/-- KEEPALIVE_RECEIVED (R82): no effect beyond the silence timer. -/
def execKeepaliveReceived (s : State) : Host.Outcome State Fault Refusal :=
  match s.link.toPartnership with
  | ⟨epoch, .keepalive⟩ :: rest =>
    .next ((s.modifyLink fun l => { l with toPartnership := rest }).ifAccepted epoch id).finish
  | _ => .next s

/-- LEAVE_RECEIVED (R87). -/
def execLeaveReceived (s : State) : Host.Outcome State Fault Refusal :=
  match s.link.toPartnership with
  | ⟨epoch, .leave⟩ :: rest =>
    .next ((s.modifyLink fun l => { l with toPartnership := rest }).leaveAtPartnership epoch).finish
  | _ => .next s

/-- PARTNERSHIP_GRANT (R74). With no partnership grant in transit nothing changes (R139). -/
def execPartnershipGrant (s : State) : Host.Outcome State Fault Refusal :=
  match s.link.grant with
  | some .partnership =>
    .next ((s.modifyLink fun l => { l with grant := none }).partnershipGrantAt).finish
  | _ => .next s

/-- R84: the join timer runs out. -/
def State.joinExpired (s : State) : State :=
  let s := s.changeLinkState .silent .joinTimeout
  ((s.modifyPart (·.withdrawn)).completeJoin .timeout).discardReplies

/-- JOIN_TIMER_EXPIRY (R84): it runs only in JOINING. -/
def execJoinTimerExpiry (s : State) : Host.Outcome State Fault Refusal :=
  if s.part.state = .joining ∧ s.part.joinTimer.hasRunOut then .next s.joinExpired.finish
  else .next s

/-- HELLO_TIMER_EXPIRY (R75): HELLO becomes pending and the timer starts again with 200 ms. -/
def execHelloTimerExpiry (s : State) : Host.Outcome State Fault Refusal :=
  if s.part.helloTimer.hasRunOut then
    .next (s.modifyPart fun p =>
      { p with helloPending := true, helloTimer := .running 200 }).finish
  else .next s

/-- R81: the silence timer runs out; the loss is reported to the flows. -/
def State.silenceExpired (s : State) : State :=
  let s := s.changeLinkState .lost .silence
  let s := s.modifyPart fun p =>
    { p with
      silenceTimer := .stopped
      keepaliveTimer := .stopped
      keepalivePending := false
      holdTimer := .running (s.params.holdLimit * 1000)
      helloPending := true
      helloTimer := .running 200 }
  s.eachFlow State.lossAtFlow

/-- SILENCE_TIMER_EXPIRY (R81): it runs only in PARTNERED. -/
def execSilenceTimerExpiry (s : State) : Host.Outcome State Fault Refusal :=
  if s.part.state = .partnered ∧ s.part.silenceTimer.hasRunOut then .next s.silenceExpired.finish
  else .next s

/-- KEEPALIVE_TIMER_EXPIRY (R82): KEEPALIVE becomes pending and the timer stays stopped. -/
def execKeepaliveTimerExpiry (s : State) : Host.Outcome State Fault Refusal :=
  if s.part.state = .partnered ∧ s.part.keepaliveTimer.hasRunOut then
    .next (s.modifyPart fun p =>
      { p with keepalivePending := true, keepaliveTimer := .stopped }).finish
  else .next s

/-- R83: the hold timer runs out. The LINK_STATE cause precedes the flows' causes (R89). -/
def State.holdExpired (s : State) : State :=
  let s := s.changeLinkState .joining .holdExpired
  let s := (s.eachFlow (State.partnershipEndAtFlow .partnerLost)).discardPending
  s.drawEpoch.modifyPart fun p =>
    { p with
      holdTimer := .stopped
      joinTimer := .running (s.params.joinLimit * 1000)
      helloPending := true }

/-- HOLD_TIMER_EXPIRY (R83): it runs only in LOST. -/
def execHoldTimerExpiry (s : State) : Host.Outcome State Fault Refusal :=
  if s.part.state = .lost ∧ s.part.holdTimer.hasRunOut then .next s.holdExpired.finish
  else .next s

end Sys2Proof.Machine
end

