-- ==== Sys2Proof/Machine/Intake.lean ====
section
/-! DEFINITION. Request intake (R149 to R151) and the forming of responses (R152, R181). -/

namespace Sys2Proof.Machine

/-- R181: a response frame, from the station address, with the tag and code of its request. -/
def State.responseFrame (s : State) (destination : Address) (tag : Tag) (code : Byte) (status : Status)
    (body : List Byte) : Frame :=
  formManagement destination s.params.stationAddress s.unitId kindResponse tag code (Status.code status)
    body

/-- R149: the frame is ignored at the screen. -/
def State.screensOut (s : State) (v : FrameView) (h : ManagementHeader) : Bool :=
  s.engine.state != .ready || h.version != 1 || h.kind != kindRequest || isGroup v.source ||
    (v.destination == broadcastAddress && h.target != s.unitId &&
      !(h.target == BitVec.allOnes 48 && h.code == codeIdentify))

/-- R150 step 1: neither IDENTIFY nor BIND, and the source is not the bound manager. -/
def State.lacksBinding (s : State) (source : Address) (code : Byte) : Bool :=
  code != codeIdentify && code != codeBind && !s.boundTo source

/-- R150 step 2: the entry of the completed-request record with a source and tag. -/
def Engine.recorded (e : Engine) (source : Address) (tag : Tag) : Option RecordEntry :=
  e.record.find? fun r => r.source == source && r.tag == tag

/-- R150 step 3: the request queue holds a request with a source and tag. -/
def Engine.queued (e : Engine) (source : Address) (tag : Tag) : Bool :=
  e.requests.any fun r => r.source == source && r.tag == tag

/-- R151: a response made at intake is placed if its path has room, and the frame is ignored otherwise. -/
def State.answerAtIntake (s : State) (origin : Origin) (frame : Frame) : State :=
  if s.pathRoom 8 4 origin then s.placeReply origin ⟨frame, false⟩ else s.countIgnored

/-- R151, R153: the lease timer restarts with the lease duration. -/
def Binding.renewed : Binding → Binding
  | .unbound => .unbound
  | .bound manager origin lease _ => .bound manager origin lease (lease * 1000)

/-- R151: a request is appended while the queue holds fewer than 8, and renews the bound manager's lease;
else the frame is answered BUSY. -/
def State.enqueue (s : State) (r : Request) : State :=
  if s.engine.requests.length < 8 then
    s.modifyEngine fun e =>
      { e with
        requests := e.requests ++ [r]
        binding := if s.boundTo r.source then Binding.renewed e.binding else e.binding }
  else s.answerAtIntake r.origin (s.responseFrame r.source r.tag r.code .busy [])

/-- R150: a frame that passes the screen, against the binding, the record and the queue. Log entry 15, DEDUCED, unsafe:
a saved response keeps the source address that it was formed with. -/
def State.admitRequest (s : State) (r : Request) : State :=
  if s.lacksBinding r.source r.code then
    s.answerAtIntake r.origin (s.responseFrame r.source r.tag r.code .notBound [])
  else
    match s.engine.recorded r.source r.tag with
    | some entry => s.answerAtIntake r.origin entry.response
    | none => if s.engine.queued r.source r.tag then s.countIgnored else s.enqueue r

/-- R149 to R151: a request frame reaches intake. -/
def State.intake (s : State) (origin : Origin) (v : FrameView) : State :=
  match readManagement v.payload with
  | none => s.countIgnored
  | some h =>
    if s.screensOut v h then s.countIgnored
    else s.admitRequest ⟨v.source, origin, h.tag, h.code, h.body⟩

end Sys2Proof.Machine
end

