-- ==== Sys2Proof/Machine/WirePort.lean ====
section
/-! DEFINITION. The wire port and the classifier (sections 6 and 8.6): reception, classification and its
actions, the wire transmitter, the wired link. -/

namespace Sys2Proof.Machine

/-! ## Actions (R2, R109 to R112) -/

/-- R111: a frame taken by the bulk path. -/
def State.bulkPath (s : State) (cls : PortClass) (frame : Frame) : State :=
  if s.part.state = .partnered then
    match s.grantBulk with
    | some s => s.modifyLink fun l => { l with bulkQueue := l.bulkQueue ++ [⟨cls, frame⟩] }
    | none => s.countBulkDropped
  else s.countBulkDropped

/-- R110, R112: DISCARD or BULK(class), of a fallback, an entry or the default action. -/
def State.plainAction (s : State) (action : PlainAction) (frame : Frame) : State :=
  match action with
  | .discard => s
  | .bulk cls => s.bulkPath cls frame

/-- R2: a frame for an OPEN flow, which joins the send queue or is refused for lack of a buffer. -/
def State.acceptFrame (s : State) (f : FlowId) (frame : Frame) : State :=
  match s.grantFlow f with
  | some s =>
    (s.modifyFlow f fun fl => { fl with sendQueue := fl.sendQueue ++ [frame] }).countFlow f fun c =>
      { c with txAccepted := c.txAccepted + 1 }
  | none => s.countFlow f fun c => { c with txRefused := c.txRefused + 1 }

/-- R2, R109: a frame offered to a flow; one that the flow declines is diverted to the fallback. -/
def State.offerFrame (s : State) (f : FlowId) (fallback : PlainAction) (frame : Frame) : State :=
  if (s.flow f).state = .opened then s.acceptFrame f frame
  else
    (s.countFlow f fun c => { c with txDiverted := c.txDiverted + 1 }).plainAction fallback frame

/-- 6.4: the action of the deciding entry. An entry of the active bank has a fallback when its action is
FLOW (R124); an absent one discards. -/
def State.entryAction (s : State) (e : ClassEntry) (frame : Frame) : State :=
  match e.action with
  | .discard => s
  | .bulk cls => s.bulkPath cls frame
  | .flow f => s.offerFrame f (e.fallback.getD .discard) frame

/-- R106: the hit count of an index rises. -/
def State.countHit (s : State) (i : Fin 128) : State :=
  { s with hits := writeAt s.hits i (readAt s.hits i + 1) }

/-- R108: the classifier takes a frame: the first matching entry decides it, or the default action. -/
def State.classifyFrame (s : State) (v : FrameView) (frame : Frame) : State :=
  match s.tables.activeBank.classify v with
  | some i => (s.countHit i).entryAction (readAt s.tables.activeBank.entries i) frame
  | none =>
    (s.countDevice fun c => { c with wireUnmatched := c.wireUnmatched + 1 }).plainAction
      s.tables.activeBank.default frame

/-- R105: a management frame for this bridge. -/
def State.isManagement (s : State) (v : FrameView) : Bool :=
  v.etherType == managementEtherType &&
    (v.destination == s.params.stationAddress || v.destination == broadcastAddress)

/-- R103: the checks of a completed reception. -/
def receptionGood (received : List Byte) (receiveError : Bool) : Bool :=
  checkHolds received && !receiveError && validFrameLength (checkedPart received)

/-- R103, R105, R108. -/
def State.receiveFrame (s : State) (received : List Byte) (receiveError : Bool) : State :=
  if receptionGood received receiveError then
    let frame := checkedPart received
    let v := readFrame frame
    if s.isManagement v then s.intake .wire v else s.classifyFrame v frame
  else s.countDevice fun c => { c with wireRxBad := c.wireRxBad + 1 }

/-! ## The end of a wire transmission (R146) -/

/-- R146: the end of a frame's transmission is reported to the owner of its storage; a frame of the
management egress leaves it, and the RESTART response's leaving is its departure (R166). -/
def State.wireEnd (s : State) (owner : WireOwner) : State :=
  match owner with
  | .abandoned => s
  | .account a => s.releaseAccount a
  | .management =>
    let s' := s.modifyWire fun w => { w with managementEgress := w.managementEgress.drop 1 }
    if (s.wire.managementEgress.take 1).any (·.restartResponse) then s'.responseDeparted else s'

/-- R145: the transmitter becomes IDLE and takes the next frame, if it may. -/
def State.wireNext (s : State) : State :=
  s.modifyWire fun w => ({ w with transmitter := .idle } : WirePort).take

/-! ## Commands -/

/-- POWER_ON_RESET (R48): every block takes its power-on initial values. The fused unit identifier stays,
and so do the commands waiting and the model's count of epoch draws. -/
def execPowerOnReset (s : State) : Host.Outcome State Fault Refusal :=
  .next (State.powerOn s.unitId s.epochDraws s.pending)

/-- WIRE_FRAME_RECEPTION (R103). -/
def execWireFrameReception (received : List Byte) (receiveError : Bool) (s : State) :
    Host.Outcome State Fault Refusal :=
  .next (s.receiveFrame received receiveError).finish

/-- WIRE_TRANSMISSION_END (R146). With no frame in transmission nothing changes. -/
def execWireTransmissionEnd (s : State) : Host.Outcome State Fault Refusal :=
  match s.wire.transmitter with
  | .sending owner _ => .next ((s.wireEnd owner).wireNext).finish
  | .idle => .next s

/-- WIRED_LINK_UP (R145): an IDLE transmitter takes a frame. -/
def execWiredLinkUp (s : State) : Host.Outcome State Fault Refusal :=
  .next (s.modifyWire fun w => ({ w with linkUp := true } : WirePort).take).finish

/-- R145: a frame in transmission when the wired link goes down is ended and treated as sent. -/
def State.wireDown (s : State) : State :=
  let s := s.modifyWire fun w => { w with linkUp := false }
  match s.wire.transmitter with
  | .sending owner _ => (s.wireEnd owner).wireNext
  | .idle => s

/-- WIRED_LINK_DOWN (R145). -/
def execWiredLinkDown (s : State) : Host.Outcome State Fault Refusal := .next s.wireDown.finish

end Sys2Proof.Machine
end

