-- ==== Sys2Proof/Machine/LinkPort.lean ====
section
/-! DEFINITION. The link port (sections 6.5, 6.6 and 8.1 to 8.5): slots, the bulk grant, the end of a link
transmission, link receive dispatch, and the blocks that reach flows and the bulk path. -/

namespace Sys2Proof.Machine

/-! ## Bulk (R113, R114, R115, R152) -/

/-- R138: every BULK block taken sets the bulk credit to 0. -/
def State.bulkTaken (s : State) : State := s.modifyLink fun l => { l with bulkCredit := 0 }

/-- R113, R152: a bulk grant takes the head of the link reply queue, which stays counted there until the
end of its transmission, or else the head of the link bulk queue, which leaves it. -/
def State.bulkGrantAt (s : State) : State :=
  match s.carrierEpoch with
  | none => s
  | some epoch =>
    match s.engine.linkReply with
    | item :: _ => (s.present ⟨epoch, .bulk 3 item.frame⟩ .linkReply).bulkTaken
    | [] =>
      match s.link.bulkQueue with
      | item :: rest =>
        ((s.modifyLink fun l => { l with bulkQueue := rest }).present ⟨epoch, .bulk item.cls item.frame⟩
          .bulkBuffer).bulkTaken
      | [] => s

/-- R115: a management frame addressed to the station address, in an accepted BULK block. -/
def State.isLinkRequest (s : State) (v : FrameView) : Bool :=
  v.etherType == managementEtherType && v.destination == s.params.stationAddress

/-- R114, R115: the frame of an accepted BULK block. -/
def State.bulkAtPath (s : State) (cls : PortClass) (frame : Frame) : State :=
  let v := readFrame frame
  if s.isLinkRequest v then s.intake .link v
  else
    match s.grantBulk with
    | some s => s.placeClass cls ⟨.bulk, frame⟩
    | none => s.countBulkDropped

/-! ## The end of a link transmission (R140) -/

/-- R140, R99, R152, R166: what the end of a block's transmission does. -/
def State.linkEnd (s : State) (owner : LinkOwner) : State :=
  match owner with
  | .plain => s
  | .bulkBuffer => s.releaseBulk
  | .restartLeave => s.applyRestart
  | .linkReply =>
    let s' := s.modifyEngine fun e => { e with linkReply := e.linkReply.drop 1 }
    if (s.engine.linkReply.take 1).any (·.restartResponse) then s'.responseDeparted else s'

/-- R133: at the end of a transmission the transmitter is SLOT_OPEN if a further slot is signalled, and
IDLE otherwise. -/
def LinkPort.transmissionOver (l : LinkPort) : LinkPort :=
  { l with transmitter := if l.slotSignal then .slotOpen else .idle }

/-! ## Dispatch (R143, R144) -/

/-- R144: a block is routed to its destination by its kind. -/
def LinkPort.route (l : LinkPort) (b : LinkBlock) : LinkPort :=
  match b.body with
  | .hello _ _ | .keepalive | .leave => { l with toPartnership := l.toPartnership ++ [b] }
  | .openFlow _ _ _ | .openAck _ _ | .close _ | .closeAck _ | .abort _ | .data _ _ _
  | .status _ _ _ _ | .advance _ _ => { l with toFlows := l.toFlows ++ [b] }
  | .bulk _ _ => { l with toBulk := l.toBulk ++ [b] }

/-- R143: the checks of a delivered block, in order. A block that passes both is counted and routed; the
test of R88 is made where it reaches its destination. -/
def State.deliverBlock (s : State) (received : List Byte) (receivedInError : Bool) : State :=
  if receivedInError || !checkHolds received then
    s.countDevice fun c => { c with linkRxBad := c.linkRxBad + 1 }
  else
    match readBlock (checkedPart received) with
    | none => s.countDevice fun c => { c with linkRxMalformed := c.linkRxMalformed + 1 }
    | some b =>
      (s.countDevice fun c => { c with blocksReceived := c.blocksReceived + 1 }).modifyLink (·.route b)

/-- The head of the blocks routed to the reliability engine has been taken. -/
def State.dropFlowBlock (s : State) : State := s.modifyLink fun l => { l with toFlows := l.toFlows.drop 1 }

/-! ## Commands -/

/-- LINK_BLOCK_DELIVERY (R143). -/
def execLinkBlockDelivery (received : List Byte) (receivedInError : Bool) (s : State) :
    Host.Outcome State Fault Refusal :=
  .next (s.deliverBlock received receivedInError).finish

/-- OPEN_RECEIVED (R54, R55): the first block routed to the reliability engine, an OPEN, reaches its
flow. -/
def execOpenReceived (s : State) : Host.Outcome State Fault Refusal :=
  match s.link.toFlows with
  | ⟨epoch, .openFlow f window order⟩ :: _ =>
    .next (s.dropFlowBlock.ifAccepted epoch (·.openAtFlow f window order)).finish
  | _ => .next s

/-- OPEN_ACK_RECEIVED (R56). -/
def execOpenAckReceived (s : State) : Host.Outcome State Fault Refusal :=
  match s.link.toFlows with
  | ⟨epoch, .openAck f verdict⟩ :: _ =>
    .next (s.dropFlowBlock.ifAccepted epoch (·.openAckAtFlow f verdict)).finish
  | _ => .next s

/-- CLOSE_RECEIVED (R60). -/
def execCloseReceived (s : State) : Host.Outcome State Fault Refusal :=
  match s.link.toFlows with
  | ⟨epoch, .close f⟩ :: _ => .next (s.dropFlowBlock.ifAccepted epoch (·.closeAtFlow f)).finish
  | _ => .next s

/-- CLOSE_ACK_RECEIVED (R61). -/
def execCloseAckReceived (s : State) : Host.Outcome State Fault Refusal :=
  match s.link.toFlows with
  | ⟨epoch, .closeAck f⟩ :: _ => .next (s.dropFlowBlock.ifAccepted epoch (·.closeAckAtFlow f)).finish
  | _ => .next s

/-- ABORT_RECEIVED (R63). -/
def execAbortReceived (s : State) : Host.Outcome State Fault Refusal :=
  match s.link.toFlows with
  | ⟨epoch, .abort f⟩ :: _ => .next (s.dropFlowBlock.ifAccepted epoch (·.abortAtFlow f)).finish
  | _ => .next s

/-- DATA_RECEIVED (R28). -/
def execDataReceived (s : State) : Host.Outcome State Fault Refusal :=
  match s.link.toFlows with
  | ⟨epoch, .data f q frame⟩ :: _ =>
    .next (s.dropFlowBlock.ifAccepted epoch (·.dataAtFlow f q frame)).finish
  | _ => .next s

/-- ADVANCE_RECEIVED (R38). -/
def execAdvanceReceived (s : State) : Host.Outcome State Fault Refusal :=
  match s.link.toFlows with
  | ⟨epoch, .advance f q⟩ :: _ => .next (s.dropFlowBlock.ifAccepted epoch (·.advanceAtFlow f q)).finish
  | _ => .next s

/-- STATUS_RECEIVED (R11). -/
def execStatusReceived (s : State) : Host.Outcome State Fault Refusal :=
  match s.link.toFlows with
  | ⟨epoch, .status f a map high⟩ :: _ =>
    .next (s.dropFlowBlock.ifAccepted epoch (·.statusAtFlow f a map high)).finish
  | _ => .next s

/-- BULK_RECEIVED (R114, R115): the first block routed to the bulk path reaches it. -/
def execBulkReceived (s : State) : Host.Outcome State Fault Refusal :=
  match s.link.toBulk with
  | ⟨epoch, .bulk cls frame⟩ :: rest =>
    .next ((s.modifyLink fun l => { l with toBulk := rest }).ifAccepted epoch
      (·.bulkAtPath cls frame)).finish
  | _ => .next s

/-- R133: the transceiver's signal makes an IDLE transmitter SLOT_OPEN; during SENDING it is a further
slot, recognised after the end of the block. -/
def LinkPort.slotSignalled (l : LinkPort) : LinkPort :=
  { l with
    slotSignal := true
    transmitter := if l.transmitter = .idle then .slotOpen else l.transmitter }

/-- SLOT_SIGNALLED (R133): the scheduler selects at once. -/
def execSlotSignalled (s : State) : Host.Outcome State Fault Refusal :=
  .next (s.modifyLink (·.slotSignalled)).finish

/-- R133, R139: a withdrawal in SLOT_OPEN returns the transmitter to IDLE; a grant in transit will be
declined with nothing changed and no new selection, so it is no longer held. -/
def LinkPort.slotWithdrawn (l : LinkPort) : LinkPort :=
  if l.transmitter = .slotOpen then
    { l with slotSignal := false, transmitter := .idle, grant := none }
  else { l with slotSignal := false }

/-- SLOT_WITHDRAWN (R133). -/
def execSlotWithdrawn (s : State) : Host.Outcome State Fault Refusal :=
  .next (s.modifyLink (·.slotWithdrawn)).finish

/-- BULK_GRANT (R113). With no bulk grant in transit nothing changes (R139). -/
def execBulkGrant (s : State) : Host.Outcome State Fault Refusal :=
  match s.link.grant with
  | some .bulk => .next ((s.modifyLink fun l => { l with grant := none }).bulkGrantAt).finish
  | _ => .next s

/-- LINK_TRANSMISSION_END (R140). With no block in transmission nothing changes. -/
def execLinkTransmissionEnd (s : State) : Host.Outcome State Fault Refusal :=
  match s.link.transmitter with
  | .sending owner _ => .next ((s.modifyLink (·.transmissionOver)).linkEnd owner).finish
  | .idle | .slotOpen => .next s

end Sys2Proof.Machine
end

