-- ==== Sys2Proof/Machine/Requests.lean ====
section
/-! DEFINITION. The execution of requests (R156 to R159) and the requests on identity, binding, tables, the
device parameters, counters, notices and RESTART (sections 7, 9 and 10). -/

namespace Sys2Proof.Machine

/-! ## Execution (R156, R157, R173) -/

/-- What the work of a request answers: a status (Table 9.3) and a response body (Table 11.6). -/
structure Answer where
  status : Status
  body : List Byte
  deriving DecidableEq, Repr

/-- A response with an empty body. -/
def Answer.plain (status : Status) : Answer := ⟨status, []⟩

/-- R157: a response is stored; with 8 entries held the entry stored earliest is removed. -/
def Engine.store (e : Engine) (r : Request) (response : Frame) : Engine :=
  { e with
    record := (if e.record.length < 8 then e.record else e.record.drop 1) ++
      [⟨r.source, r.tag, response⟩] }

/-- R173: the marks that a request has given are cleared. -/
def Notices.clearMarks (n : Notices) (mark : RequestMark) : Notices :=
  { n with queue := n.queue.map fun q => if q.held = some mark then { q with held := none } else q }

/-- R156, R173: the last act of an execution: its response enters its reply path and the marks clear. -/
def State.respond (s : State) (r : Request) (response : ReplyItem) : State :=
  ((s.placeReply r.origin response).modifyNotices (·.clearMarks ⟨r.source, r.tag⟩)).modifyEngine
    fun e => { e with executing := none }

/-- R156: an execution that is answered NOT_BOUND, whose response is not stored (R157). -/
def State.refuseUnbound (s : State) (r : Request) : State :=
  s.respond r ⟨s.responseFrame r.source r.tag r.code .notBound [], false⟩

/-- R165: a RESTART answered OK, whose response the engine awaits. -/
def isRestartResponse (r : Request) (a : Answer) : Bool := r.code == codeRestart && a.status == .ok

/-- R156, R157: the response to a request executed: stored in the record and placed in the reply path. -/
def State.answerRequest (s : State) (r : Request) (a : Answer) : State :=
  let response := s.responseFrame r.source r.tag r.code a.status a.body
  (s.modifyEngine (·.store r response)).respond r ⟨response, isRestartResponse r a⟩

/-- R156: the binding is tested again, then the request's work is done and answered. -/
def State.executeRequest (s : State) (r : Request) (work : Request → State → Answer × State) : State :=
  if s.lacksBinding r.source r.code then s.refuseUnbound r
  else
    let (a, s) := work r s
    s.answerRequest r a

/-- R156: the engine is READY and the request at the head of the queue has room in its reply path. -/
def State.headRequest (s : State) : Option Request :=
  match s.engine.requests with
  | [] => none
  | r :: _ => if s.engine.state = .ready ∧ s.pathRoom 8 4 r.origin then some r else none

/-- R156: the request taken leaves the queue and is in execution. -/
def State.begin (s : State) (r : Request) : State :=
  s.modifyEngine fun e =>
    { e with requests := e.requests.drop 1, executing := some ⟨r.source, r.tag⟩ }

/-- R156: the execution of the request at the head of the queue, when its code is the one that a command
names. Otherwise no such request is taken, and nothing changes. -/
def State.execute (s : State) (named : Byte → Bool) (work : Request → State → Answer × State) :
    Host.Outcome State Fault Refusal :=
  match s.headRequest with
  | none => .next s
  | some r => if named r.code then .next ((s.begin r).executeRequest r work).finish else .next s

/-! ## Reading bodies (Table 11.4, R182) -/

/-- A request without body. -/
def bodyless (r : Request) (s : State) (work : Answer × State) : Answer × State :=
  if r.body = [] then work else (.plain .badRequest, s)

/-- R158: the flow named by a body of one byte; above 63 the request is answered BAD_REQUEST. -/
def requestFlow (r : Request) : Option FlowId :=
  if r.body.length = 1 then flowOfByte (byteAt r.body 0) else none

/-- A request that names a flow. -/
def withFlow (r : Request) (s : State) (work : FlowId → Answer × State) : Answer × State :=
  match requestFlow r with
  | none => (.plain .badRequest, s)
  | some f => work f

/-! ## IDENTIFY (R160), BIND (R154), UNBIND (R155) -/

/-- Table 11.6, lease remaining in seconds; the rounding of a part of a second is free (log entry 2). -/
def leaseSeconds (remaining : Nat) : Nat :=
  if remaining % 1000 = 0 then remaining / 1000
  else remaining / 1000 + (if Config.leaseRoundsUp remaining then 1 else 0)

/-- Table 11.6, the binding of an IDENTIFY response. -/
def bindingBytes : Binding → List Byte
  | .unbound => beBytes 1 0 ++ beBytes 6 0 ++ beBytes 2 Config.leaseWhileUnbound.toNat
  | .bound manager _ _ remaining =>
    beBytes 1 1 ++ beBytes 6 manager.toNat ++ beBytes 2 (leaseSeconds remaining)

/-- R160. -/
def identifyWork (r : Request) (s : State) : Answer × State :=
  bodyless r s
    (⟨.ok, beBytes 6 s.unitId.toNat ++ beBytes 6 s.params.stationAddress.toNat ++ beBytes 2 0x0604 ++
      beBytes 1 1 ++ bindingBytes s.engine.binding⟩, s)

/-- R154: the binding to a request's source, with its origin and lease. -/
def State.bindTo (s : State) (r : Request) (lease : Nat) : State :=
  s.modifyEngine fun e => { e with binding := .bound r.source r.origin lease (lease * 1000) }

/-- R154: the effect of a BIND with a lease in range. -/
def bindWith (r : Request) (s : State) (lease : Nat) (force : Bool) : Answer × State :=
  match s.engine.binding with
  | .unbound => (.plain .ok, s.bindTo r lease)
  | .bound manager _ _ _ =>
    if manager = r.source ∨ force then (.plain .ok, s.bindTo r lease)
    else (⟨.heldByOther, beBytes 6 manager.toNat⟩, s)

/-- R154, R182: lease in seconds, 1..600, and flags with bit 0 force. -/
def bindWork (r : Request) (s : State) : Answer × State :=
  let lease := field r.body 0 2
  if r.body.length = 3 ∧ byteAt r.body 2 < 2 ∧ 1 ≤ lease ∧ lease ≤ 600 then
    bindWith r s lease (byteAt r.body 2 == 1)
  else (.plain .badRequest, s)

/-- R155. -/
def unbindWork (r : Request) (s : State) : Answer × State :=
  bodyless r s (.plain .ok, s.modifyEngine fun e => { e with binding := .unbound })

/-! ## Tables (R122 to R131) -/

def generationBytes (s : State) : List Byte := beBytes 4 s.tables.generation.toNat

/-- Table 11.6: an entry of the active classification table is followed by its hit count. -/
def hitBytes (s : State) (bank : BankId) (t : TableName) (i : Nat) : List Byte :=
  if bank = s.tables.active ∧ t = .classification then
    (s.hits.toList[i]?.map fun c => beBytes 4 c.toNat).getD []
  else []

/-- R122: the entries named, in index order. -/
def readEntries (s : State) (bank : BankId) (t : TableName) (first count : Nat) : List Byte :=
  (List.range count).flatMap fun k =>
    (s.tables.bank bank).entryAt t (first + k) ++ hitBytes s bank t (first + k)

/-- R122, R182: bank, table, first index, count. -/
def readTableWork (r : Request) (s : State) : Answer × State :=
  let first := byteAt r.body 2
  let count := byteAt r.body 3
  match bankOfCode (byteAt r.body 0), tableOfCode (byteAt r.body 1) with
  | some bank, some t =>
    if r.body.length = 4 ∧ t.rangeOk first count then
      (⟨.ok, beBytes 1 (BankId.code s.tables.active) ++ generationBytes s ++ r.body ++
        readEntries s bank t first count⟩, s)
    else (.plain .badRequest, s)
  | _, _ => (.plain .badRequest, s)

/-- R124, R125: the shadow bank written whole, or the first bad entry's index. -/
def writeShadow (s : State) (t : TableName) (first count : Nat) (entries : List Byte) : Answer × State :=
  match s.tables.shadowBank.writeEntries t count first entries with
  | .bad i => (⟨.badEntry, beBytes 1 i⟩, s)
  | .written b => (⟨.ok, generationBytes s⟩, { s with tables := s.tables.setShadow b })

/-- R123, R182: table, first index, count, and exactly count entries. -/
def writeTableWork (r : Request) (s : State) : Answer × State :=
  let first := byteAt r.body 1
  let count := byteAt r.body 2
  match tableOfCode (byteAt r.body 0) with
  | some t =>
    if r.body.length = 3 + count * t.entryBytes ∧ t.rangeOk first count then
      writeShadow s t first count (r.body.drop 3)
    else (.plain .badRequest, s)
  | none => (.plain .badRequest, s)

/-- R126. -/
def copyBankWork (r : Request) (s : State) : Answer × State :=
  bodyless r s
    (⟨.ok, generationBytes s⟩, { s with tables := s.tables.setShadow s.tables.activeBank })

/-- R129: a flow that is held to the structural check and would be changed by it. -/
def State.structureChanges (s : State) (f : FlowId) : Bool :=
  ((s.flow f).state != .closed || 0 < s.held f) &&
    !(readAt s.tables.shadowBank.profiles f).sameStructure (s.profile f)

/-- R129: the first such flow. -/
def State.firstStructureChange (s : State) : Option FlowId :=
  (List.finRange 64).find? s.structureChanges

/-- R130: the shadow bank becomes active, the generation rises and the hit counts return to 0. -/
def State.commitBanks (s : State) : State :=
  { s with tables := s.tables.swap, hits := Vector.replicate 128 0 }

/-- R127 to R130: the three checks in order. -/
def commitBank (s : State) (expected : BitVec 32) : Answer × State :=
  if expected ≠ s.tables.generation then (⟨.staleGeneration, generationBytes s⟩, s)
  else
    match s.tables.shadowBank.firstDangling with
    | some i => (⟨.danglingFlow, beBytes 1 i.val⟩, s)
    | none =>
      match s.firstStructureChange with
      | some f => (⟨.structuralChange, beBytes 1 f.val⟩, s)
      | none => (⟨.ok, generationBytes s.commitBanks⟩, s.commitBanks)

/-- R127 to R130, R182: the expected generation. -/
def commitWork (r : Request) (s : State) : Answer × State :=
  if r.body.length = 4 then commitBank s (BitVec.ofNat 32 (field r.body 0 4))
  else (.plain .badRequest, s)

/-! ## Flow requests (R52, R57, R62, R64, R161) -/

/-- R52: a FLOW_OPEN that passes every check is taken. -/
def State.takeOpening (s : State) (f : FlowId) (tag : Tag) : State :=
  let s := s.makeOpenPending f
  let s := s.modifyFlow f fun fl => { fl with attempts := 0, deferred := some ⟨.flowOpen, tag⟩ }
  s.changeFlowState f .opening .request

/-- R52: the flow is OPENING and holds a deferred FLOW_OPEN. -/
def Flow.openInProgress (fl : Flow) : Bool :=
  fl.state == .opening && (fl.deferred.map (·.code)) == some .flowOpen

/-- R52: the checks in order. -/
def flowOpenAt (s : State) (f : FlowId) (tag : Tag) : Answer × State :=
  if (s.flow f).openInProgress then (.plain .inProgress, s)
  else if (s.flow f).state ≠ .closed then (.plain .wrongState, s)
  else if (s.profile f).mode ≠ .reliable then (.plain .notReliable, s)
  else if s.part.state ≠ .partnered then (.plain .noPartner, s)
  else
    match s.prepareOpening f with
    | none => (.plain .noBuffers, s)
    | some s => (.plain .accepted, s.takeOpening f tag)

def flowOpenWork (r : Request) (s : State) : Answer × State :=
  withFlow r s fun f => flowOpenAt s f r.tag

/-- R57: an OPEN flow starts to drain, and R58 is applied at once. -/
def State.startDrain (s : State) (f : FlowId) (tag : Tag) : State :=
  let s := s.modifyFlow f fun fl =>
    { fl with drainOrigin := some .localEnd, deferred := some ⟨.flowClose, tag⟩ }
  (s.changeFlowState f .draining .request).completeDrain f

/-- R57. -/
def flowCloseAt (s : State) (f : FlowId) (tag : Tag) : Answer × State :=
  match (s.flow f).state with
  | .opened => (.plain .accepted, s.startDrain f tag)
  | .draining | .closing => (.plain .inProgress, s)
  | .closed | .opening | .failed => (.plain .wrongState, s)

def flowCloseWork (r : Request) (s : State) : Answer × State :=
  withFlow r s fun f => flowCloseAt s f r.tag

/-- R62: a flow in use enters CLOSED, with an ABORT pending while PARTNERED. -/
def State.abortFlow (s : State) (f : FlowId) : State :=
  if s.part.state = .partnered then
    (s.makePending f .abort).closeFlow f .request true (plainOutcome .aborted)
  else s.closeFlow f .request false (plainOutcome .aborted)

/-- R62. -/
def flowAbortAt (s : State) (f : FlowId) : Answer × State :=
  (.plain .ok, if (s.flow f).inUse then s.abortFlow f else s)

def flowAbortWork (r : Request) (s : State) : Answer × State := withFlow r s (flowAbortAt s)

/-- R64. -/
def flowResetAt (s : State) (f : FlowId) : Answer × State :=
  if (s.flow f).state = .failed then
    (.plain .ok, s.closeFlow f .request true (plainOutcome .aborted))
  else (.plain .wrongState, s)

def flowResetWork (r : Request) (s : State) : Answer × State := withFlow r s (flowResetAt s)

/-- Table 11.8, R184: the body of a FLOW_STATUS response. Log entry 30, DESIGN CHOICE, unsafe: flag bits 4 to
7, which no table names, are sent clear. -/
def State.flowStatusBody (s : State) (f : FlowId) : List Byte :=
  let fl := s.flow f
  beBytes 1 f.val ++ beBytes 1 (FlowState.code fl.state) ++
    beBytes 1 (bitOf fl.suspended 0 + bitOf fl.retxTimer.isRunning 1 + bitOf fl.statusPending 2 +
      bitOf fl.deferred.isSome 3) ++
    beBytes 1 (drainOriginCode fl.drainOrigin) ++
    beBytes 1 (detailCode (fl.failureCause.map FailureCause.detail)) ++
    beBytes 1 (readAt s.pool.reservation f) ++
    beBytes 2 (s.held f) ++
    beBytes 1 ((fl.deferred.map fun d => (DeferredCode.byte d.code).toNat).getD 0) ++
    beBytes 2 ((fl.deferred.map (·.tag.toNat)).getD 0) ++
    beBytes 1 (pendingBlockCode fl.pendingBlock) ++ beBytes 1 fl.attempts ++
    beBytes 2 fl.lower.toNat ++ beBytes 2 fl.next.toNat ++ beBytes 2 fl.expected.toNat ++
    beBytes 2 fl.rto ++
    beBytes 2 fl.sendQueue.length ++ beBytes 1 fl.window.length ++
    beBytes 1 (fl.window.countP (·.due)) ++ beBytes 1 fl.reorder.length

/-- R161. -/
def flowStatusWork (r : Request) (s : State) : Answer × State :=
  withFlow r s fun f => (⟨.ok, s.flowStatusBody f⟩, s)

/-! ## Partnership requests (R73, R86, R162) -/

/-- R73: a LINK_JOIN taken in SILENT. -/
def State.startJoin (s : State) (tag : Tag) : State :=
  let s := s.drawEpoch.modifyPart fun p =>
    { p with
      deferredJoin := some tag
      joinTimer := .running (s.params.joinLimit * 1000)
      helloPending := true
      helloTimer := .running 200 }
  s.changeLinkState .joining .request

/-- R73. -/
def joinAt (s : State) (tag : Tag) : Answer × State :=
  match s.part.state with
  | .silent => (.plain .accepted, s.startJoin tag)
  | .joining =>
    (.plain (if s.part.deferredJoin.isSome then .inProgress else .wrongState), s)
  | .partnered | .lost => (.plain .wrongState, s)

def linkJoinWork (r : Request) (s : State) : Answer × State := bodyless r s (joinAt s r.tag)

/-- R86. -/
def linkLeaveWork (r : Request) (s : State) : Answer × State :=
  bodyless r s (.plain .ok, if s.part.state = .silent then s else s.localLeave)

/-- Table 11.9, R184: the body of a LINK_STATUS response. Log entry 30, DESIGN CHOICE, unsafe: flag bits 5 to
7, which no table names, are sent clear. -/
def Partnership.statusBody (p : Partnership) : List Byte :=
  beBytes 1 (LinkState.code p.state) ++
    beBytes 1 (bitOf p.ownEpoch.isSome 0 + bitOf p.partnerEpoch.isSome 1 + bitOf p.partnerUnit.isSome 2 +
      bitOf p.deferredJoin.isSome 3 + bitOf p.leavePending.isSome 4) ++
    beBytes 4 ((p.ownEpoch.map (·.toNat)).getD 0) ++ beBytes 4 ((p.partnerEpoch.map (·.toNat)).getD 0) ++
    beBytes 6 ((p.partnerUnit.map (·.toNat)).getD 0) ++ beBytes 2 ((p.deferredJoin.map (·.toNat)).getD 0)

/-- R162. -/
def linkStatusWork (r : Request) (s : State) : Answer × State :=
  bodyless r s (⟨.ok, s.part.statusBody⟩, s)

/-! ## Counters (R178) -/

/-- Table 10.4, in order. -/
def FlowCounters.values (c : FlowCounters) : List Counter :=
  [c.txAccepted, c.txRefused, c.txDiverted, c.dataSent, c.dataRetransmitted, c.skipped, c.rxDelivered,
    c.rxDuplicate, c.rxRefused, c.rxOutOfWindow, c.statusStale]

/-- Table 10.5, in order. -/
def DeviceCounters.values (c : DeviceCounters) : List Counter :=
  [c.wireRxBad, c.wireUnmatched, c.managementIgnored, c.linkRxBad, c.linkRxMalformed, c.linkRxStale,
    c.linkRxForeign, c.bulkDropped, c.blocksTransmitted, c.blocksReceived]

def counterBytes (cs : List Counter) : List Byte := cs.flatMap fun c => beBytes 4 c.toNat

/-- R178, scope DEVICE; the flow byte of the response is free (log entry 4). -/
def readDeviceCounters (s : State) (flowByte : Byte) (clear : Bool) : Answer × State :=
  (⟨.ok, [0, Config.deviceScopeFlowByte flowByte] ++ counterBytes s.deviceCounters.values ++
    beBytes 2 s.pool.free ++ beBytes 2 s.pool.sharedFree ++ beBytes 1 s.pool.bulkHeld⟩,
    if clear then { s with deviceCounters := DeviceCounters.zero } else s)

/-- R178, scope FLOW. -/
def readFlowCounters (s : State) (f : FlowId) (clear : Bool) : Answer × State :=
  (⟨.ok, beBytes 1 1 ++ beBytes 1 f.val ++ counterBytes (readAt s.flowCounters f).values⟩,
    if clear then s.countFlow f fun _ => FlowCounters.zero else s)

/-- R178, R182: scope, flow (read only for scope FLOW), flags with bit 0 clear. -/
def readCountersWork (r : Request) (s : State) : Answer × State :=
  let clear := byteAt r.body 2 == 1
  if r.body.length = 3 ∧ byteAt r.body 2 < 2 then
    match byteAt r.body 0 with
    | 0 => readDeviceCounters s (BitVec.ofNat 8 (byteAt r.body 1)) clear
    | 1 =>
      match flowOfByte (byteAt r.body 1) with
      | some f => readFlowCounters s f clear
      | none => (.plain .badRequest, s)
    | _ => (.plain .badRequest, s)
  else (.plain .badRequest, s)

/-! ## Device parameters (R163, R164) -/

/-- Table 11.5: the value carried for a parameter if its presence bit is set, and the current one
otherwise. -/
def carried (presence bit : Nat) (value current : Nat) : Nat :=
  if hasBit presence bit then value else current

/-- Table 11.5: the parameters after a SET_PARAMS with a presence byte and a parameter area. -/
def Params.withArea (p : Params) (presence : Nat) (area : List Byte) : Params where
  stationAddress :=
    if hasBit presence 0 then BitVec.ofNat 48 (field area 0 6) else p.stationAddress
  silenceLimit := carried presence 1 (field area 6 2) p.silenceLimit
  keepaliveInterval := carried presence 2 (field area 8 2) p.keepaliveInterval
  holdLimit := carried presence 3 (field area 10 2) p.holdLimit
  joinLimit := carried presence 4 (field area 12 2) p.joinLimit
  expectedPartner :=
    if hasBit presence 5 then
      if byteAt area 14 = 1 then some (BitVec.ofNat 48 (field area 15 6)) else none
    else p.expectedPartner
  bulkCap := carried presence 6 (byteAt area 21) p.bulkCap
  poolLow := carried presence 7 (field area 22 2) p.poolLow

/-- A range that binds a parameter only when it is present. -/
def presentIn (presence bit low high value : Nat) : Bool :=
  !hasBit presence bit || (low ≤ value && value ≤ high)

/-- R163 check 1, the ranges of Table 9.4. -/
def Params.inRange (p : Params) (presence : Nat) (area : List Byte) : Bool :=
  (!hasBit presence 0 || (!isGroup p.stationAddress && p.stationAddress != 0)) &&
    presentIn presence 1 100 5000 p.silenceLimit && presentIn presence 2 50 2000 p.keepaliveInterval &&
    presentIn presence 3 1 600 p.holdLimit && presentIn presence 4 1 600 p.joinLimit &&
    presentIn presence 5 0 1 (byteAt area 14) && presentIn presence 6 0 128 p.bulkCap &&
    presentIn presence 7 0 512 p.poolLow && p.keepaliveInterval < p.silenceLimit

/-- R163: the three checks in order, then every present parameter is replaced at once. -/
def setParamsWith (s : State) (presence : Nat) (area : List Byte) : Answer × State :=
  let p := s.params.withArea presence area
  if !p.inRange presence area then (.plain .badRequest, s)
  else if p.expectedPartner ≠ s.params.expectedPartner ∧ s.part.state ≠ .silent then
    (.plain .wrongState, s)
  else if hasBit presence 6 ∧ p.bulkCap < s.pool.bulkHeld then (.plain .wrongState, s)
  else (.plain .ok, { s with params := p })

/-- R163, Table 11.4: a body of 25 bytes. -/
def setParamsWork (r : Request) (s : State) : Answer × State :=
  if r.body.length = 25 then setParamsWith s (byteAt r.body 0) (r.body.drop 1)
  else (.plain .badRequest, s)

/-- Table 11.5: the parameter area of a READ_PARAMS response. Log entry 29, DESIGN CHOICE, unsafe: the six
identifier bytes of an absent expected partner are sent as zero. -/
def Params.areaBytes (p : Params) : List Byte :=
  beBytes 6 p.stationAddress.toNat ++ beBytes 2 p.silenceLimit ++ beBytes 2 p.keepaliveInterval ++
    beBytes 2 p.holdLimit ++ beBytes 2 p.joinLimit ++ beBytes 1 (bitOf p.expectedPartner.isSome 0) ++
    beBytes 6 ((p.expectedPartner.map (·.toNat)).getD 0) ++ beBytes 1 p.bulkCap ++ beBytes 2 p.poolLow

/-- R164. -/
def readParamsWork (r : Request) (s : State) : Answer × State :=
  bodyless r s (⟨.ok, beBytes 1 0xFF ++ s.params.areaBytes⟩, s)

/-! ## Notices (R175) and RESTART (R165) -/

/-- R175, R182: the mask's bits 0 to 2; the others are clear. The response carries the mask. -/
def setNoticesWork (r : Request) (s : State) : Answer × State :=
  let mask := byteAt r.body 0
  if r.body.length = 1 ∧ mask < 8 then
    (⟨.ok, beBytes 1 mask⟩, s.modifyNotices fun n =>
      { n with
        flowStateEnabled := hasBit mask 0
        linkStateEnabled := hasBit mask 1
        poolLowEnabled := hasBit mask 2 })
  else (.plain .badRequest, s)

/-- R165: the response is OK and the engine is RESTARTING with phase AWAIT_RESPONSE. -/
def restartWork (r : Request) (s : State) : Answer × State :=
  bodyless r s (.plain .ok, s.modifyEngine fun e => { e with state := .awaitResponse })

/-- R152, R166: a RESTART response placed in the link reply queue while the partnership is SILENT is
discarded at once, which is its departure. -/
def State.restartDiscarded (s : State) (r : Request) (work : Answer × State) : Bool :=
  isRestartResponse r work.1 && !s.lacksBinding r.source r.code && r.origin == .link &&
    work.2.part.state == .silent

/-- R165, R166: the execution of a RESTART. -/
def State.executeRestart (s : State) (r : Request) : State :=
  let done := s.executeRequest r restartWork
  if s.restartDiscarded r (restartWork r s) then done.responseDeparted else done

/-! ## Commands -/

/-- IDENTIFY (R160). -/
def execIdentify (s : State) : Host.Outcome State Fault Refusal :=
  s.execute (· == codeIdentify) identifyWork

/-- BIND (R154). -/
def execBind (s : State) : Host.Outcome State Fault Refusal := s.execute (· == codeBind) bindWork

/-- UNBIND (R155). -/
def execUnbind (s : State) : Host.Outcome State Fault Refusal := s.execute (· == codeUnbind) unbindWork

/-- READ_TABLE (R122). -/
def execReadTable (s : State) : Host.Outcome State Fault Refusal :=
  s.execute (· == codeReadTable) readTableWork

/-- WRITE_TABLE (R123 to R125). -/
def execWriteTable (s : State) : Host.Outcome State Fault Refusal :=
  s.execute (· == codeWriteTable) writeTableWork

/-- COPY_BANK (R126). -/
def execCopyBank (s : State) : Host.Outcome State Fault Refusal :=
  s.execute (· == codeCopyBank) copyBankWork

/-- COMMIT (R127 to R131). -/
def execCommit (s : State) : Host.Outcome State Fault Refusal := s.execute (· == codeCommit) commitWork

/-- FLOW_OPEN (R52). -/
def execFlowOpen (s : State) : Host.Outcome State Fault Refusal :=
  s.execute (· == codeFlowOpen) flowOpenWork

/-- FLOW_CLOSE (R57). -/
def execFlowClose (s : State) : Host.Outcome State Fault Refusal :=
  s.execute (· == codeFlowClose) flowCloseWork

/-- FLOW_ABORT (R62). -/
def execFlowAbort (s : State) : Host.Outcome State Fault Refusal :=
  s.execute (· == codeFlowAbort) flowAbortWork

/-- FLOW_RESET (R64). -/
def execFlowReset (s : State) : Host.Outcome State Fault Refusal :=
  s.execute (· == codeFlowReset) flowResetWork

/-- FLOW_STATUS (R161). -/
def execFlowStatus (s : State) : Host.Outcome State Fault Refusal :=
  s.execute (· == codeFlowStatus) flowStatusWork

/-- LINK_JOIN (R73). -/
def execLinkJoin (s : State) : Host.Outcome State Fault Refusal :=
  s.execute (· == codeLinkJoin) linkJoinWork

/-- LINK_LEAVE (R86). -/
def execLinkLeave (s : State) : Host.Outcome State Fault Refusal :=
  s.execute (· == codeLinkLeave) linkLeaveWork

/-- LINK_STATUS (R162). -/
def execLinkStatus (s : State) : Host.Outcome State Fault Refusal :=
  s.execute (· == codeLinkStatus) linkStatusWork

/-- READ_COUNTERS (R178). -/
def execReadCounters (s : State) : Host.Outcome State Fault Refusal :=
  s.execute (· == codeReadCounters) readCountersWork

/-- SET_PARAMS (R163). -/
def execSetParams (s : State) : Host.Outcome State Fault Refusal :=
  s.execute (· == codeSetParams) setParamsWork

/-- READ_PARAMS (R164). -/
def execReadParams (s : State) : Host.Outcome State Fault Refusal :=
  s.execute (· == codeReadParams) readParamsWork

/-- SET_NOTICES (R175). -/
def execSetNotices (s : State) : Host.Outcome State Fault Refusal :=
  s.execute (· == codeSetNotices) setNoticesWork

/-- RESTART (R165). -/
def execRestart (s : State) : Host.Outcome State Fault Refusal :=
  match s.headRequest with
  | none => .next s
  | some r => if r.code == codeRestart then .next ((s.begin r).executeRestart r).finish else .next s

/-- UNKNOWN_REQUEST (R156): a code not in Table 9.2 is answered BAD_REQUEST. -/
def execUnknownRequest (s : State) : Host.Outcome State Fault Refusal :=
  s.execute (fun code => !requestCodes.contains code) fun _ s => (.plain .badRequest, s)

/-- R153, R168: the lease timer, which runs while the binding is BOUND, has run out. -/
def Binding.leaseOver : Binding → Bool
  | .bound _ _ _ 0 => true
  | .unbound | .bound _ _ _ (_ + 1) => false

/-- LEASE_TIMER_EXPIRY (R153): the binding becomes UNBOUND. -/
def execLeaseTimerExpiry (s : State) : Host.Outcome State Fault Refusal :=
  if s.engine.binding.leaseOver then
    .next (s.modifyEngine fun e => { e with binding := .unbound }).finish
  else .next s

end Sys2Proof.Machine
end

