-- ==== Sys2Proof/Machine/Dispatch.lean ====
section
/-! DEFINITION. The meaning of each command, one arm per row of spec/opcode_table.json. -/

namespace Sys2Proof.Machine

def exec (i : Instr) (s : State) : Host.Outcome State Fault Refusal :=
  match i with
  | .powerOnReset => Sys2Proof.Machine.execPowerOnReset s
  | .wireFrameReception received receiveError => Sys2Proof.Machine.execWireFrameReception received receiveError s
  | .linkBlockDelivery received receivedInError => Sys2Proof.Machine.execLinkBlockDelivery received receivedInError s
  | .helloReceived => Sys2Proof.Machine.execHelloReceived s
  | .keepaliveReceived => Sys2Proof.Machine.execKeepaliveReceived s
  | .leaveReceived => Sys2Proof.Machine.execLeaveReceived s
  | .openReceived => Sys2Proof.Machine.execOpenReceived s
  | .openAckReceived => Sys2Proof.Machine.execOpenAckReceived s
  | .closeReceived => Sys2Proof.Machine.execCloseReceived s
  | .closeAckReceived => Sys2Proof.Machine.execCloseAckReceived s
  | .abortReceived => Sys2Proof.Machine.execAbortReceived s
  | .dataReceived => Sys2Proof.Machine.execDataReceived s
  | .advanceReceived => Sys2Proof.Machine.execAdvanceReceived s
  | .statusReceived => Sys2Proof.Machine.execStatusReceived s
  | .bulkReceived => Sys2Proof.Machine.execBulkReceived s
  | .slotSignalled => Sys2Proof.Machine.execSlotSignalled s
  | .slotWithdrawn => Sys2Proof.Machine.execSlotWithdrawn s
  | .dataGrant => Sys2Proof.Machine.execDataGrant s
  | .statusGrant => Sys2Proof.Machine.execStatusGrant s
  | .lifecycleGrant => Sys2Proof.Machine.execLifecycleGrant s
  | .partnershipGrant => Sys2Proof.Machine.execPartnershipGrant s
  | .bulkGrant => Sys2Proof.Machine.execBulkGrant s
  | .linkTransmissionEnd => Sys2Proof.Machine.execLinkTransmissionEnd s
  | .wireTransmissionEnd => Sys2Proof.Machine.execWireTransmissionEnd s
  | .wiredLinkUp => Sys2Proof.Machine.execWiredLinkUp s
  | .wiredLinkDown => Sys2Proof.Machine.execWiredLinkDown s
  | .retransmissionTimerExpiry f => Sys2Proof.Machine.execRetransmissionTimerExpiry f s
  | .closeSeriesExpiry f => Sys2Proof.Machine.execCloseSeriesExpiry f s
  | .openTimerExpiry f => Sys2Proof.Machine.execOpenTimerExpiry f s
  | .ackDelayTimerExpiry f => Sys2Proof.Machine.execAckDelayTimerExpiry f s
  | .joinTimerExpiry => Sys2Proof.Machine.execJoinTimerExpiry s
  | .helloTimerExpiry => Sys2Proof.Machine.execHelloTimerExpiry s
  | .silenceTimerExpiry => Sys2Proof.Machine.execSilenceTimerExpiry s
  | .keepaliveTimerExpiry => Sys2Proof.Machine.execKeepaliveTimerExpiry s
  | .holdTimerExpiry => Sys2Proof.Machine.execHoldTimerExpiry s
  | .leaseTimerExpiry => Sys2Proof.Machine.execLeaseTimerExpiry s
  | .identify => Sys2Proof.Machine.execIdentify s
  | .bind => Sys2Proof.Machine.execBind s
  | .unbind => Sys2Proof.Machine.execUnbind s
  | .readTable => Sys2Proof.Machine.execReadTable s
  | .writeTable => Sys2Proof.Machine.execWriteTable s
  | .copyBank => Sys2Proof.Machine.execCopyBank s
  | .commit => Sys2Proof.Machine.execCommit s
  | .flowOpen => Sys2Proof.Machine.execFlowOpen s
  | .flowClose => Sys2Proof.Machine.execFlowClose s
  | .flowAbort => Sys2Proof.Machine.execFlowAbort s
  | .flowReset => Sys2Proof.Machine.execFlowReset s
  | .flowStatus => Sys2Proof.Machine.execFlowStatus s
  | .linkJoin => Sys2Proof.Machine.execLinkJoin s
  | .linkLeave => Sys2Proof.Machine.execLinkLeave s
  | .linkStatus => Sys2Proof.Machine.execLinkStatus s
  | .readCounters => Sys2Proof.Machine.execReadCounters s
  | .setParams => Sys2Proof.Machine.execSetParams s
  | .readParams => Sys2Proof.Machine.execReadParams s
  | .setNotices => Sys2Proof.Machine.execSetNotices s
  | .restart => Sys2Proof.Machine.execRestart s
  | .unknownRequest => Sys2Proof.Machine.execUnknownRequest s

end Sys2Proof.Machine
end

