-- ==== Sys2Proof/Safety.lean ====
section
/-! DEFINITION. What a sound state of the HX604 is: the laws that the manual states of every moment, each a
predicate of one state, in the terms that claims use. -/

namespace Sys2Proof.Machine

/-! ## The pool (5.2, 5.3) -/

/-- R92: the buffers that the 64 flow accounts hold together. -/
def Pool.heldByFlows (p : Pool) : Nat := ((List.finRange 64).map fun f => readAt p.held f).sum

/-- R92, R93, R95, R96, R97 of the counts of the pool. -/
structure State.PoolLaws (s : State) : Prop where
  /-- R92: the held counts, the bulk held count and the free count add up to 512. -/
  conserved : s.pool.heldByFlows + s.pool.bulkHeld + s.pool.free = 512
  /-- R93: shared free is never below zero. -/
  covered : s.pool.totalUnused ≤ s.pool.free
  /-- R96: every flow's held count is at or below its cap. -/
  capped : ∀ f, s.held f ≤ (s.profile f).cap
  /-- R97: the bulk held count never exceeds the bulk cap in force. -/
  bulkCapped : s.pool.bulkHeld ≤ s.params.bulkCap
  /-- R94, R95: a flow in use has the reserve of its active profile reserved, any other flow nothing. -/
  reserved : ∀ f, readAt s.pool.reservation f =
    if (s.flow f).inUse then (s.profile f).reserve else 0

/-- 5.2: the frames of an account in the wire class queues and in transmission on the wire. -/
def WirePort.egressOf (w : WirePort) (a : Account) : Nat :=
  ((List.finRange 4).map fun c => (readAt w.classQueues c).countP (·.account == a)).sum +
    (match w.transmitter with
      | .sending (.account b) _ => if b = a then 1 else 0
      | .sending .management _ | .sending .abandoned _ | .idle => 0)

/-- 5.2: the bulk frames in the link bulk queue and in transmission on the link. -/
def LinkPort.bulkFrames (l : LinkPort) : Nat :=
  l.bulkQueue.length +
    (match l.transmitter with
      | .sending .bulkBuffer _ => 1
      | .sending .plain _ | .sending .linkReply _ | .sending .restartLeave _ | .idle | .slotOpen => 0)

/-- R92: an account's held count counts the frames that the part stores for it; no block is in transmission
while a grant is in transit, so that taking the grant loses no frame. -/
structure State.BuffersAccounted (s : State) : Prop where
  /-- R133, R139. -/
  slot : s.link.grant.isSome = true → s.link.transmitter = .slotOpen
  flows : ∀ f, s.held f = (s.flow f).collectedBuffers + s.wire.egressOf (.flow f)
  bulk : s.pool.bulkHeld = s.link.bulkFrames + s.wire.egressOf .bulk

/-! ## Queues with a bound (Tables 8.2, 9.1, 10.1) -/

/-- R156, R172 and Tables 8.1, 8.2, 9.1, 10.1: no queue holds more than its table allows. -/
structure State.QueueBounds (s : State) : Prop where
  egress : s.wire.managementEgress.length ≤ 8
  replies : s.engine.linkReply.length ≤ 4
  requests : s.engine.requests.length ≤ 8
  record : s.engine.record.length ≤ 8
  notices : s.notices.queue.length ≤ 32
  credit : s.link.bulkCredit ≤ 15

/-! ## Windows (R4, R6, R27) -/

/-- R4: one entry for each sequence from L up to but excluding N, in order, and no more than W. -/
def Flow.windowWhole (fl : Flow) (w : Nat) : Prop :=
  fl.window.map (·.seq) =
      (List.range fl.window.length).map (fun k => fl.lower + BitVec.ofNat 12 k) ∧
    fl.next = fl.lower + BitVec.ofNat 12 fl.window.length ∧ fl.window.length ≤ w

/-- R6: the transmission-order list holds the window's sequences, each once. -/
def Flow.orderWhole (fl : Flow) : Prop := fl.txOrder.Perm (fl.window.map (·.seq))

/-- R27: the members stand at rising distances from E, between 1 and W − 1. -/
def Flow.reorderWhole (fl : Flow) (w : Nat) : Prop :=
  (fl.reorder.map fun m => seqDistance fl.expected m.seq).Pairwise (· < ·) ∧
    ∀ m ∈ fl.reorder, 1 ≤ seqDistance fl.expected m.seq ∧ seqDistance fl.expected m.seq < w

/-- 3.1: a flow in CLOSED or FAILED may still owe an OPEN_ACK, a CLOSE_ACK or an ABORT, and no other
block. -/
def LifecycleBlock.owedAtRest : LifecycleBlock → Bool
  | .openAck _ | .closeAck | .abort => true
  | .openFlow _ _ | .close => false

/-- R51: a flow in CLOSED or FAILED has empty collections, stopped timers and no request held. -/
def Flow.atRest (fl : Flow) : Prop :=
  fl.sendQueue = [] ∧ fl.window = [] ∧ fl.txOrder = [] ∧ fl.reorder = [] ∧ fl.suspended = false ∧
    fl.statusPending = false ∧ fl.dataSince = 0 ∧ fl.attempts = 0 ∧ fl.retxTimer = .stopped ∧
    fl.ackTimer = .stopped ∧ fl.openTimer = .stopped ∧ fl.drainOrigin = none ∧ fl.deferred = none ∧
    (∀ b ∈ fl.pendingBlock, b.owedAtRest)

/-- R52, R55: the context of an OPENING flow is fresh since the FLOW_OPEN was taken. -/
def Flow.fresh (fl : Flow) : Prop :=
  fl.sendQueue = [] ∧ fl.window = [] ∧ fl.txOrder = [] ∧ fl.reorder = [] ∧ fl.lower = 0 ∧ fl.next = 0 ∧
    fl.expected = 0 ∧ fl.retxTimer = .stopped ∧ fl.ackTimer = .stopped ∧ fl.statusPending = false ∧
    fl.dataSince = 0 ∧ fl.suspended = false

/-- The laws of one flow context under a window of w. -/
structure Flow.Whole (fl : Flow) (w : Nat) : Prop where
  window : fl.inUse → fl.windowWhole w
  order : fl.orderWhole
  reorder : fl.reorderWhole w
  /-- Table 2.1. -/
  since : fl.dataSince ≤ 32
  atRest : fl.inUse = false → fl.atRest
  fresh : fl.state = .opening → fl.fresh
  /-- R16, R58: the local traffic of a CLOSING flow is fully acknowledged. -/
  acknowledged : fl.state = .closing → fl.sendQueue = [] ∧ fl.window = []
  /-- R9, R13, R16, R18, R20, R22, R67: in OPEN and DRAINING the retransmission timer runs exactly while
  an entry is in flight. -/
  timer : fl.state = .opened ∨ fl.state = .draining → fl.retxTimer.isRunning = fl.anyInFlight
  /-- Table 3.2: the drain origin is present only in DRAINING. -/
  origin : fl.drainOrigin.isSome = (fl.state == .draining)
  /-- R50, R52, R59: an OPEN is owed only in OPENING, and a CLOSE only in CLOSING. -/
  owed : (∀ window order, fl.pendingBlock = some (.openFlow window order) → fl.state = .opening) ∧
    (fl.pendingBlock = some .close → fl.state = .closing)

/-- Every flow's context is whole under the window of its active profile, which is at most 64. -/
structure State.WindowLaws (s : State) : Prop where
  flows : ∀ f, (s.flow f).Whole (s.profile f).window
  profiles : ∀ bank f, (readAt (s.tables.bank bank).profiles f).inRange

/-! ## The partnership (Table 4.1) -/

/-- Table 4.1, R71 to R87: which timers run in a partnership state, and what is recorded. -/
def Partnership.ordered (p : Partnership) : Prop :=
  match p.state with
  | .silent =>
    p.joinTimer = .stopped ∧ p.helloTimer = .stopped ∧ p.silenceTimer = .stopped ∧
      p.keepaliveTimer = .stopped ∧ p.holdTimer = .stopped ∧ p.helloPending = false ∧
      p.keepalivePending = false ∧ p.partnerEpoch = none ∧ p.partnerUnit = none ∧ p.deferredJoin = none
  | .joining =>
    p.joinTimer.isRunning ∧ p.helloTimer.isRunning ∧ p.silenceTimer = .stopped ∧
      p.keepaliveTimer = .stopped ∧ p.holdTimer = .stopped ∧ p.keepalivePending = false ∧
      p.ownEpoch.isSome
  | .partnered =>
    p.joinTimer = .stopped ∧ p.helloTimer = .stopped ∧ p.silenceTimer.isRunning ∧
      p.holdTimer = .stopped ∧ p.ownEpoch.isSome ∧ p.partnerEpoch.isSome ∧ p.partnerUnit.isSome ∧
      p.deferredJoin = none
  | .lost =>
    p.joinTimer = .stopped ∧ p.helloTimer.isRunning ∧ p.silenceTimer = .stopped ∧
      p.keepaliveTimer = .stopped ∧ p.holdTimer.isRunning ∧ p.keepalivePending = false ∧
      p.ownEpoch.isSome ∧ p.partnerEpoch.isSome ∧ p.partnerUnit.isSome ∧ p.deferredJoin = none

/-- R52, R66, R67, R77: what a flow may be in a partnership state. Flows are in use only in PARTNERED and
LOST; in LOST none is OPENING and each flow in use is suspended; elsewhere none is suspended. -/
def Flow.fits (fl : Flow) : LinkState → Prop
  | .silent | .joining => fl.inUse = false ∧ fl.suspended = false
  | .partnered => fl.suspended = false
  | .lost => fl.state ≠ .opening ∧ fl.suspended = fl.inUse

/-- The partnership's own law, and every flow's place under it. -/
structure State.PartnershipLaws (s : State) : Prop where
  ordered : s.part.ordered
  flows : ∀ f, (s.flow f).fits s.part.state

/-! ## The scheduler and the notices (R135, R171, R173) -/

/-- R135: the lifecycle order holds the number of each flow with a pending lifecycle block, once. -/
structure State.LifecycleLaws (s : State) : Prop where
  listed : ∀ f, f ∈ s.link.lifecycleOrder ↔ (s.flow f).pendingBlock.isSome
  once : s.link.lifecycleOrder.Nodup

/-- R171, R173: no two queued notices could have been folded into one, and no notice is marked between
happenings, since no request is in execution. -/
structure State.NoticeLaws (s : State) : Prop where
  folded : s.notices.queue.Pairwise fun a b => b.content.fold a.content = none
  unmarked : ∀ n ∈ s.notices.queue, n.held = none
  idle : s.engine.executing = none

/-! ## Tables and parameters (R121, R124, R163) -/

/-- Table 9.4: every device parameter in its range, the keepalive interval below the silence limit. -/
def Params.sound (p : Params) : Prop :=
  isGroup p.stationAddress = false ∧ p.stationAddress ≠ 0 ∧ 100 ≤ p.silenceLimit ∧
    p.silenceLimit ≤ 5000 ∧ 50 ≤ p.keepaliveInterval ∧ p.keepaliveInterval ≤ 2000 ∧
    p.keepaliveInterval < p.silenceLimit ∧ 1 ≤ p.holdLimit ∧ p.holdLimit ≤ 600 ∧ 1 ≤ p.joinLimit ∧
    p.joinLimit ≤ 600 ∧ p.bulkCap ≤ 128 ∧ p.poolLow ≤ 512

/-- R124, Table 6.1: a priority range's low is not above its high; a payload pattern's offset is at most 127 and
its length 1 to 4. -/
def ClassEntry.inRange (e : ClassEntry) : Prop :=
  (∀ r ∈ e.priority, r.1 ≤ r.2) ∧
    ∀ p ∈ e.pattern, p.offset ≤ 127 ∧ 1 ≤ p.bytes.length ∧ p.bytes.length ≤ 4

/-- R121, R124, R163: what WRITE_TABLE, COMMIT and SET_PARAMS let through. -/
structure State.ConfigurationLaws (s : State) : Prop where
  /-- R124: every profile of both banks is in range. -/
  profiles : ∀ bank f, (readAt (s.tables.bank bank).profiles f).inRange
  /-- R124: every classification entry of both banks is in range. -/
  ranges : ∀ bank i, (readAt (s.tables.bank bank).entries i).inRange
  /-- R124: a classification entry has a fallback exactly when its action is FLOW. -/
  fallbacks : ∀ bank i, fallbackFits (readAt (s.tables.bank bank).entries i).action
    (readAt (s.tables.bank bank).entries i).fallback
  /-- R121, R128: no valid entry of the active bank names a DISABLED flow. -/
  noDangling : ∀ i, s.tables.activeBank.dangling i = false
  /-- Table 9.4, R163. -/
  params : s.params.sound
  /-- 0.6, Table 9.4: the fused unit identifier, the power-on station address, is an individual address. -/
  fuses : isGroup s.unitId = false ∧ s.unitId ≠ 0

/-! ## Frames and the premises of claims -/

/-- The parts of the state that a frame names. -/
inductive StatePart where
  | flows | pool | wire | link | part | tables | hits | engine | params | notices | flowCounters
  | deviceCounters | epochDraws
  deriving DecidableEq, Repr

/-- Every part of the state but those named is the same in t as in s; the fuses and the waiting commands
always are. -/
structure State.Unchanged (touched : List StatePart) (s t : State) : Prop where
  flows : .flows ∉ touched → t.flows = s.flows
  pool : .pool ∉ touched → t.pool = s.pool
  wire : .wire ∉ touched → t.wire = s.wire
  link : .link ∉ touched → t.link = s.link
  part : .part ∉ touched → t.part = s.part
  tables : .tables ∉ touched → t.tables = s.tables
  hits : .hits ∉ touched → t.hits = s.hits
  engine : .engine ∉ touched → t.engine = s.engine
  params : .params ∉ touched → t.params = s.params
  notices : .notices ∉ touched → t.notices = s.notices
  flowCounters : .flowCounters ∉ touched → t.flowCounters = s.flowCounters
  deviceCounters : .deviceCounters ∉ touched → t.deviceCounters = s.deviceCounters
  epochDraws : .epochDraws ∉ touched → t.epochDraws = s.epochDraws
  unitId : t.unitId = s.unitId
  pending : t.pending = s.pending

/-- R156: a request of one code is next to be executed: it stands at the head of the queue, the engine is
READY, its reply path has room, its source may have it executed, and no notice is marked (NoticeLaws). -/
structure State.Takes (s : State) (r : Request) (code : Byte) : Prop where
  head : s.engine.requests.head? = some r
  ready : s.engine.state = .ready
  room : s.pathRoom 8 4 r.origin = true
  coded : r.code = code
  bound : code = codeIdentify ∨ code = codeBind ∨ s.boundTo r.source = true
  unmarked : ∀ n ∈ s.notices.queue, n.held = none

/-- R88: the first block routed to the reliability engine is one that the partnership accepts. -/
structure State.Receives (s : State) (b : LinkBlock) : Prop where
  head : s.link.toFlows.head? = some b
  partnered : s.part.state = .partnered
  epoch : s.part.partnerEpoch = some b.epoch

/-- R81, R88, R144: the state in which a flow takes an accepted block: the block has left the blocks routed
to the reliability engine, and the silence timer has restarted with the silence limit. -/
def State.receiving (s : State) : State :=
  { s with
    link := { s.link with toFlows := s.link.toFlows.tail }
    part := { s.part with silenceTimer := .running s.params.silenceLimit } }

/-- R82, R140: what presenting a block to the transceiver does when a grant is taken while PARTNERED: the
slot is consumed, the keepalive timer restarts with the keepalive interval and blocks transmitted rises. -/
def State.presenting (s : State) (owner : LinkOwner) (b : LinkBlock) : State :=
  { s with
    link := { s.link with
      grant := none, transmitter := .sending owner (formBlock b), slotSignal := false }
    part := { s.part with keepaliveTimer := .running s.params.keepaliveInterval }
    deviceCounters := { s.deviceCounters with
      blocksTransmitted := s.deviceCounters.blocksTransmitted + 1 } }

/-- R82, R140: what presenting a block does in any partnership state: the keepalive timer restarts while the
partnership is PARTNERED, and stays otherwise. -/
def State.presentingInAny (s : State) (owner : LinkOwner) (b : LinkBlock) : State :=
  { s.presenting owner b with
    part := if s.part.state = .partnered then (s.presenting owner b).part else s.part }

/-- R139: what a declined grant leaves: the grant is no longer in transit, and every other part is as it was. -/
def State.declined (s : State) : State := { s with link := { s.link with grant := none } }

/-! ## Classification (6.2, 6.3) -/

/-- R107, Table 6.1: the entry is valid, and every match field that is present matches the frame. -/
structure ClassEntry.Matches (e : ClassEntry) (v : FrameView) : Prop where
  valid : e.valid = true
  destination : ∀ a, e.destination = some a → v.destination = a
  source : ∀ a, e.source = some a → v.source = a
  etherType : ∀ x, e.etherType = some x → v.etherType = x
  untagged : e.vlan = some .untagged → v.tag = none
  vlan : ∀ vid, e.vlan = some (.id vid) → ∃ priority, v.tag = some (priority, vid)
  /-- A priority range fails for an untagged frame. -/
  priority : ∀ low high, e.priority = some (low, high) →
    ∃ priority vid, v.tag = some (priority, vid) ∧ low ≤ priority ∧ priority ≤ high
  /-- A pattern that reaches beyond the payload fails. -/
  pattern : ∀ p, e.pattern = some p → p.offset + p.bytes.length ≤ v.payload.length ∧
    ∀ i value mask, p.bytes[i]? = some (value, mask) →
      ∃ b, v.payload[p.offset + i]? = some b ∧ b &&& mask = value &&& mask

/-- R108: the entry at an index is the first of a bank, in index order, that matches a frame. -/
def Bank.DecidedBy (b : Bank) (v : FrameView) (i : Fin 128) : Prop :=
  (readAt b.entries i).Matches v ∧ ∀ j, j < i → ¬ (readAt b.entries j).Matches v

/-- R108: no entry of a bank matches a frame. -/
def Bank.Undecided (b : Bank) (v : FrameView) : Prop := ∀ i, ¬ (readAt b.entries i).Matches v

/-! ## What is offered (R5, R8, R135) -/

/-- R5: the entry is due: PENDING_RETX, or SKIPPED with advance state DUE. -/
def WindowEntry.IsDue (e : WindowEntry) : Prop :=
  (∃ frame, e.condition = .pendingRetx frame) ∨ e.condition = .skipped .due

/-- R8: an entry is the due entry of lowest sequence: it is due, and none before it in the window is. The window
stands in order of sequence (R4, WindowLaws). -/
structure Flow.ServesFirst (fl : Flow) (older : List WindowEntry) (e : WindowEntry)
    (newer : List WindowEntry) : Prop where
  window : fl.window = older ++ e :: newer
  due : e.IsDue
  first : ∀ x ∈ older, ¬ x.IsDue

/-- R50, R135: a flow that may be granted its lifecycle block: one is pending, and the flow is not suspended. -/
def Flow.OwesFreely (fl : Flow) : Prop := fl.pendingBlock ≠ none ∧ fl.suspended = false

/-! ## The wire transmitter (R145, R146) -/

/-- R145: the wire port after its transmitter has become IDLE, or after the wired link has come up at an IDLE
transmitter: with the link up it sends the head of the management egress, else the head of the highest class queue
that holds a frame, and otherwise it stays IDLE. -/
structure WirePort.TakesNext (w t : WirePort) : Prop where
  down : w.linkUp = false → t = { w with transmitter := .idle }
  management : ∀ item rest, w.linkUp = true → w.managementEgress = item :: rest →
    t = { w with transmitter := .sending .management (withCheck item.frame) }
  frame : ∀ cls item rest, w.linkUp = true → w.managementEgress = [] →
    readAt w.classQueues cls = item :: rest → (∀ c, cls < c → readAt w.classQueues c = []) →
    t = { w with
      classQueues := writeAt w.classQueues cls rest
      transmitter := .sending (.account item.account) (withCheck item.frame) }
  nothing : w.linkUp = true → w.managementEgress = [] → (∀ c, readAt w.classQueues c = []) →
    t = { w with transmitter := .idle }

/-- R92: an account holds a buffer to return. -/
def State.HoldsFor (s : State) : Account → Prop
  | .flow f => 1 ≤ s.held f
  | .bulk => 1 ≤ s.pool.bulkHeld

/-! ## The reply paths (R145, R152) -/

/-- R145, R152: a management frame at the tail of the management egress; an IDLE transmitter with the wired link
up begins the frame at the head. -/
def WirePort.replied (w : WirePort) (item : ReplyItem) : WirePort :=
  { w with
    managementEgress := w.managementEgress ++ [item]
    transmitter := match w.transmitter with
      | .idle =>
        if w.linkUp then .sending .management (withCheck (w.managementEgress.head?.getD item).frame)
        else .idle
      | .sending owner bytes => .sending owner bytes }

/-- R152: a frame at the tail of an origin's reply path; one for the link is discarded while SILENT. -/
def State.replied (s : State) (origin : Origin) (item : ReplyItem) : State :=
  match origin with
  | .wire => { s with wire := s.wire.replied item }
  | .link => { s with engine := { s.engine with
      linkReply := if s.part.state = .silent then s.engine.linkReply else s.engine.linkReply ++ [item] } }

/-! ## What a happening raises and releases -/

/-- R170 to R172: the notices after causes that are taken in order. -/
def Notices.takeAll (n : Notices) (causes : List NoticeContent) : Notices :=
  causes.foldl (fun n c => n.take c none) n

/-- R100: the low-pool test between a state and the pool after a happening, and the notices after it. -/
structure State.LowPoolTested (s : State) (after : Pool) (n : Notices) : Prop where
  /-- A happening that leaves shared free as it was makes no test. -/
  untested : after.sharedFree = s.pool.sharedFree → after.lowArmed = s.pool.lowArmed ∧ n = s.notices
  fell : after.sharedFree ≠ s.pool.sharedFree → s.pool.lowArmed = true →
    after.sharedFree < s.params.poolLow →
    after.lowArmed = false ∧ n = s.notices.takeAll [.poolLow after.sharedFree]
  above : after.sharedFree ≠ s.pool.sharedFree → s.pool.lowArmed = true →
    s.params.poolLow ≤ after.sharedFree → after.lowArmed = true ∧ n = s.notices
  disarmed : after.sharedFree ≠ s.pool.sharedFree → s.pool.lowArmed = false →
    after.lowArmed = decide (s.params.poolLow ≤ after.sharedFree) ∧ n = s.notices

/-- R100, R170: a happening that changes shared free at most once, before it raises the causes named. -/
def State.Raises (s t : State) (causes : List NoticeContent) : Prop :=
  ∃ n, s.LowPoolTested t.pool n ∧ t.notices = n.takeAll causes

/-- R98, R99: one buffer of an account has returned to free. -/
structure State.BufferReturned (s t : State) (account : Account) : Prop where
  free : t.pool.free = s.pool.free + 1
  held : ∀ f, t.held f = if account = .flow f then s.held f - 1 else s.held f
  bulkHeld : t.pool.bulkHeld = if account = .bulk then s.pool.bulkHeld - 1 else s.pool.bulkHeld
  reservation : t.pool.reservation = s.pool.reservation
  raises : s.Raises t []

/-- R100, R170: a happening that raises the causes named in their order, with a POOL_LOW of a low-pool test before,
between or after them wherever shared free changes. Each POOL_LOW carries a shared free below the threshold; how
many there are is not said. -/
def State.RaisesAmong (s t : State) (causes : List NoticeContent) : Prop :=
  ∃ all : List NoticeContent, t.notices = s.notices.takeAll all ∧
    (all.filter fun c => match c with
      | .poolLow _ => false
      | .flowState _ _ _ _ | .linkState _ _ _ | .completion _ _ _ _ => true) = causes ∧
    ∀ free, .poolLow free ∈ all → free < s.params.poolLow

/-- R158: the COMPLETION cause of the request that a flow holds deferred, if it holds one. -/
def Flow.completion (fl : Flow) (outcome : DeferredCode → Completion × Option Detail) :
    List NoticeContent :=
  match fl.deferred with
  | none => []
  | some d => [.completion d.tag (DeferredCode.byte d.code) (outcome d.code).1 (outcome d.code).2]

/-- R1, R26, R51: what an entry of one flow to CLOSED or FAILED does to the flow and to the pool. -/
structure State.FlowEnded (s t : State) (f : FlowId) (new : FlowState) : Prop where
  state : (t.flow f).state = new
  /-- Steps 1 to 3, 6 and 8. -/
  atRest : (t.flow f).atRest
  /-- R1, R26: L, N, E and the current RTO keep their values. -/
  kept : (t.flow f).lower = (s.flow f).lower ∧ (t.flow f).next = (s.flow f).next ∧
    (t.flow f).expected = (s.flow f).expected ∧ (t.flow f).rto = (s.flow f).rto
  others : ∀ k, k ≠ f → t.flow k = s.flow k
  /-- Steps 1, 2 and 5: the collected buffers return to free; those in the wire egress stay charged. -/
  held : t.held f = s.held f - (s.flow f).collectedBuffers
  heldOthers : ∀ k, k ≠ f → t.held k = s.held k
  free : t.pool.free = s.pool.free + (s.flow f).collectedBuffers
  bulkHeld : t.pool.bulkHeld = s.pool.bulkHeld
  reservation : t.pool.reservation = writeAt s.pool.reservation f 0

/-- R156, R157, R152: a request was executed, and its response, formed with the parameters as they then
stand, is stored in the record and placed at the tail of the path of the request's origin. `replies` is the
link reply queue before that. -/
structure State.Answers (s t : State) (r : Request) (status : Status) (body : List Byte)
    (replies : List ReplyItem) : Prop where
  taken : t.engine.requests = s.engine.requests.tail
  stored : t.engine.record =
    (if s.engine.record.length < 8 then s.engine.record else s.engine.record.tail) ++
      [⟨r.source, r.tag, t.responseFrame r.source r.tag r.code status body⟩]
  idle : t.engine.executing = none
  byWire : r.origin = .wire →
    t.wire.managementEgress = s.wire.managementEgress ++
      [⟨t.responseFrame r.source r.tag r.code status body, r.code == codeRestart && status == .ok⟩] ∧
    t.wire.classQueues = s.wire.classQueues ∧ t.wire.linkUp = s.wire.linkUp ∧
    t.engine.linkReply = replies
  /-- R145: a management frame waiting for an IDLE transmitter is taken at once. -/
  transmitter : r.origin = .wire →
    if s.wire.transmitter = .idle ∧ s.wire.linkUp = true then
      ∀ item rest, t.wire.managementEgress = item :: rest →
        t.wire.transmitter = .sending .management (withCheck item.frame)
    else t.wire.transmitter = s.wire.transmitter
  byLink : r.origin = .link →
    t.wire = s.wire ∧ t.engine.linkReply = if t.part.state = .silent then replies else replies ++
      [⟨t.responseFrame r.source r.tag r.code status body, r.code == codeRestart && status == .ok⟩]

/-! ## Receiving data (R28 to R41) -/

/-- R96: the pool has a buffer for a flow's account. -/
def State.HasBufferFor (s : State) (f : FlowId) : Prop :=
  s.held f < (s.profile f).cap ∧ (s.held f < readAt s.pool.reservation f ∨ 1 ≤ s.pool.sharedFree)

/-- R92, R96: one buffer has moved from free to a flow's account. -/
structure State.BufferTaken (s t : State) (f : FlowId) : Prop where
  free : t.pool.free = s.pool.free - 1
  held : t.held f = s.held f + 1
  heldOthers : ∀ k, k ≠ f → t.held k = s.held k
  reservation : t.pool.reservation = s.pool.reservation
  bulkHeld : t.pool.bulkHeld = s.pool.bulkHeld

/-- R145: the wire transmitter takes no frame now. -/
def WirePort.busy (w : WirePort) : Prop := w.transmitter ≠ .idle ∨ w.linkUp = false

/-- R37, R114: frames at the tail of a class queue. -/
def WirePort.joined (w : WirePort) (cls : PortClass) (items : List WireItem) : WirePort :=
  { w with classQueues := writeAt w.classQueues cls (readAt w.classQueues cls ++ items) }

/-- R37, R114, R145: the wire port after frames have been placed, in order, at the tail of one class queue. -/
structure WirePort.Placed (w : WirePort) (cls : PortClass) (items : List WireItem) (t : WirePort) :
    Prop where
  none : items = [] → t = w
  /-- A transmitter that takes no frame now leaves them where they are placed. -/
  waits : w.busy → t = w.joined cls items
  /-- With an empty egress an IDLE transmitter begins the first of them, and the rest stand in the class
  queue. -/
  begins : ∀ first rest, w.transmitter = .idle → w.linkUp = true → w.managementEgress = [] →
    (∀ c, readAt w.classQueues c = []) → items = first :: rest →
    t = { w.joined cls rest with
      transmitter := .sending (.account first.account) (withCheck first.frame) }
  /-- With any egress an IDLE transmitter takes the next frame once the first of them is placed. -/
  takes : ∀ first rest, w.transmitter = .idle → w.linkUp = true → items = first :: rest →
    ∃ u, (w.joined cls [first]).TakesNext u ∧ t = u.joined cls rest

/-- R97, R111: the bulk path takes a frame: the partnership is PARTNERED, and the pool has a bulk buffer. -/
def State.HasBulkRoom (s : State) : Prop :=
  s.part.state = .partnered ∧ s.pool.bulkHeld < s.params.bulkCap ∧ 1 ≤ s.pool.sharedFree

/-- R97, R111: a frame has joined the tail of the link bulk queue, with one buffer from free to the bulk account. -/
structure State.BulkQueued (s t : State) (cls : PortClass) (frame : Frame) : Prop where
  link : t.link = { s.link with bulkQueue := s.link.bulkQueue ++ [⟨cls, frame⟩] }
  free : t.pool.free = s.pool.free - 1
  bulkHeld : t.pool.bulkHeld = s.pool.bulkHeld + 1
  held : t.pool.held = s.pool.held
  reservation : t.pool.reservation = s.pool.reservation
  raises : s.Raises t []

/-- The frames of the FRAME members of a run, in order. -/
def framesOf (run : List Member) : List Frame :=
  run.filterMap fun m => match m.kind with
    | .frame frame => some frame
    | .skip | .delivered => none

/-- R40, R41: the marks of an accepted DATA; `gap` says that status pending is set whatever the count. -/
def Flow.counted (fl : Flow) (p : Profile) (gap : Bool) : Flow :=
  let since := if fl.dataSince < 32 then fl.dataSince + 1 else fl.dataSince
  { fl with
    dataSince := since
    statusPending := fl.statusPending || gap || p.ackEvery ≤ since
    ackTimer := if fl.ackTimer = .stopped then .running p.ackDelay else fl.ackTimer }

/-- R30: E and the reorder set after the run from a sequence: `run` holds one member for each sequence from
`first`, and `rest` none for the next. -/
structure ContiguousRun (first : Seq) (run rest : List Member) : Prop where
  contiguous : run.map (·.seq) = (List.range run.length).map fun k => first + BitVec.ofNat 12 k
  stops : ∀ m ∈ rest.head?, m.seq ≠ first + BitVec.ofNat 12 run.length

/-- R27: a place in the reorder set for a sequence that it does not hold. -/
structure PlaceInOrder (e q : Seq) (before after : List Member) : Prop where
  nearer : ∀ m ∈ before, seqDistance e m.seq < seqDistance e q
  farther : ∀ m ∈ after, seqDistance e q < seqDistance e m.seq

/-! ## Lifecycle and partnership events -/

/-- R135: the lifecycle order with a flow at its tail, and with a flow gone from it. -/
def LinkPort.queued (l : LinkPort) (f : FlowId) : LinkPort :=
  { l with lifecycleOrder := l.lifecycleOrder.filter (· ≠ f) ++ [f] }

def LinkPort.unqueued (l : LinkPort) (f : FlowId) : LinkPort :=
  { l with lifecycleOrder := l.lifecycleOrder.filter (· ≠ f) }

/-- R58: what keeps a draining flow from completing its drain. -/
def Flow.busyDraining (fl : Flow) : Prop :=
  fl.suspended = true ∨ fl.sendQueue ≠ [] ∨ fl.window ≠ [] ∨ fl.pendingBlock.isSome = true

/-- R58, R67: a suspended DRAINING flow whose drain is complete once it resumes. -/
def Flow.drainsAtRegain (fl : Flow) : Bool :=
  fl.suspended && fl.state == .draining && fl.sendQueue.isEmpty && fl.window.isEmpty && fl.pendingBlock.isNone

/-- R58, R67: a flow that enters CLOSED at regain, its drain of origin PEER complete. -/
def Flow.endsAtRegain (fl : Flow) : Bool := fl.drainsAtRegain && fl.drainOrigin == some .peerEnd

/-- R58, R67: a flow that owes a new block at regain: a CLOSE in CLOSING with none pending, or what the end of its
drain owes. -/
def Flow.owesAtRegain (fl : Flow) : Bool :=
  fl.suspended && fl.state == .closing && fl.pendingBlock.isNone || fl.drainsAtRegain && fl.drainOrigin.isSome

/-- R58, R67, R158: what a flow raises at regain: the completion and the change of state of a drain that ends. -/
def Flow.causesAtRegain (f : FlowId) (fl : Flow) : List NoticeContent :=
  match fl.drainsAtRegain, fl.drainOrigin with
  | true, some .localEnd => [.flowState f .draining .closing .drained]
  | true, some .peerEnd =>
    (fl.completion fun _ => (.done, none)) ++ [.flowState f .draining .closed .drained]
  | true, none | false, _ => []

/-- R51 steps 8 and 9: what a flow raises as it ends: the completion of its deferred request, and the change of
state. -/
def Flow.causesAtEnd (f : FlowId) (fl : Flow) (new : FlowState) (cause : FlowCause)
    (outcome : DeferredCode → Completion × Option Detail) : List NoticeContent :=
  fl.completion outcome ++ [.flowState f fl.state new cause]

/-- R66: what a flow raises when the partnership becomes LOST. -/
def Flow.causesAtLoss (f : FlowId) (fl : Flow) : List NoticeContent :=
  match fl.state with
  | .opening => fl.causesAtEnd f .closed .partnerLost fun _ => (.partnerLost, none)
  | .opened | .draining | .closing | .closed | .failed => []

/-- R68, R69: the outcome of a deferred request at an event whose cause is a detail. -/
def outcomeAtEnd (detail : Detail) : DeferredCode → Completion × Option Detail
  | .flowOpen => (.partnerLost, none)
  | .flowClose => (.aborted, some detail)

/-- R68: what a flow raises at a hold expiry or a partner restart. -/
def Flow.causesAtRestart (cause : FlowCause) (detail : Detail) (f : FlowId) (fl : Flow) :
    List NoticeContent :=
  match fl.state with
  | .opening => fl.causesAtEnd f .closed .partnerLost (outcomeAtEnd detail)
  | .opened | .draining | .closing => fl.causesAtEnd f .failed cause (outcomeAtEnd detail)
  | .closed | .failed => []

/-- R69: what a flow raises at a LEAVE received. -/
def Flow.causesAtLeave (f : FlowId) (fl : Flow) : List NoticeContent :=
  if fl.inUse then fl.causesAtEnd f .failed .partnerLeft (outcomeAtEnd .partnerLeft) else []

/-- R69: what a flow raises at a local LINK_LEAVE. -/
def Flow.causesAtLocalLeave (f : FlowId) (fl : Flow) : List NoticeContent :=
  if fl.inUse then fl.causesAtEnd f .closed .localLeave fun _ => (.aborted, none) else []

/-- 3.7: what the flows raise at an event that reaches them in increasing number. -/
def State.flowCauses (s : State) (causes : FlowId → Flow → List NoticeContent) : List NoticeContent :=
  (List.finRange 64).flatMap fun f => causes f (s.flow f)

/-- R66 to R69, R51: an event at every flow in use that ends it, with what it does to the pool: the buffers
of the flows that end return to free, and no other flow is touched. -/
structure State.FlowsEnded (s t : State) (new : FlowState → FlowState) (failure : Option FailureCause) :
    Prop where
  state : ∀ f, (s.flow f).inUse = true → (t.flow f).state = new (s.flow f).state
  atRest : ∀ f, (s.flow f).inUse = true → (t.flow f).atRest
  failureCause : ∀ f, (s.flow f).inUse = true → (t.flow f).failureCause =
    if (t.flow f).state = .failed then failure else (s.flow f).failureCause
  /-- R68, R69: every pending lifecycle block, of every flow, is discarded. -/
  discarded : (∀ f, (t.flow f).pendingBlock = none) ∧ t.link.lifecycleOrder = []
  others : ∀ f, (s.flow f).inUse = false → t.flow f = { s.flow f with pendingBlock := none }
  held : ∀ f, t.held f =
    if (s.flow f).inUse = true then s.held f - (s.flow f).collectedBuffers else s.held f
  reservation : ∀ f, readAt t.pool.reservation f =
    if (s.flow f).inUse = true then 0 else readAt s.pool.reservation f
  /-- R92: no buffer is lost or made. -/
  conserved : t.pool.heldByFlows + t.pool.free = s.pool.heldByFlows + s.pool.free
  bulkHeld : t.pool.bulkHeld = s.pool.bulkHeld

/-- R144: the command at which a block routed to the reliability engine reaches its flow. -/
def arrivalOf : BlockBody → Option Instr
  | .openFlow _ _ _ => some .openReceived
  | .openAck _ _ => some .openAckReceived
  | .close _ => some .closeReceived
  | .closeAck _ => some .closeAckReceived
  | .abort _ => some .abortReceived
  | .data _ _ _ => some .dataReceived
  | .status _ _ _ _ => some .statusReceived
  | .advance _ _ => some .advanceReceived
  | .hello _ _ | .keepalive | .leave | .bulk _ _ => none

/-- R77 to R79: a HELLO confirms a bridge when its seen epoch equals the bridge's own epoch. -/
def Partnership.confirmedBy (p : Partnership) (seen : Option Epoch) : Prop :=
  ∃ own, seen = some own ∧ p.ownEpoch = some own

/-! ## Requests -/

/-- R105, R115, R149: a command that brings a management frame to request intake, by the wire or in an accepted
BULK block, with its origin, the frame as read, and the state in which intake takes it. -/
def State.Brings (s : State) (c : Instr) (origin : Origin) (v : FrameView) (u : State) : Prop :=
  v.etherType = 0x9C41 ∧
    ((∃ received, c = .wireFrameReception received false ∧ receptionGood received false = true ∧
        v = readFrame (checkedPart received) ∧ origin = .wire ∧ u = s ∧
        (v.destination = s.params.stationAddress ∨ v.destination = broadcastAddress)) ∨
      (∃ epoch cls frame rest, c = .bulkReceived ∧ s.link.toBulk = ⟨epoch, .bulk cls frame⟩ :: rest ∧
        s.part.state = .partnered ∧ s.part.partnerEpoch = some epoch ∧ v = readFrame frame ∧
        origin = .link ∧ v.destination = s.params.stationAddress ∧
        u = { s with
          link := { s.link with toBulk := rest }
          part := { s.part with silenceTimer := .running s.params.silenceLimit } }))

/-- R149: what the screen lets through while the engine is READY. -/
def State.Screens (s : State) (v : FrameView) (h : ManagementHeader) : Prop :=
  h.version = 1 ∧ h.kind = 1 ∧ isGroup v.source = false ∧
    (v.destination = broadcastAddress →
      h.target = s.unitId ∨ (h.target = BitVec.allOnes 48 ∧ h.code = codeIdentify))

/-- R156, Table 11.4: the command at which the engine executes a request of a code. -/
def commandOfCode (code : Byte) : Instr :=
  match code.toNat with
  | 0x01 => .identify
  | 0x02 => .bind
  | 0x03 => .unbind
  | 0x10 => .readTable
  | 0x11 => .writeTable
  | 0x12 => .copyBank
  | 0x13 => .commit
  | 0x20 => .flowOpen
  | 0x21 => .flowClose
  | 0x22 => .flowAbort
  | 0x23 => .flowReset
  | 0x24 => .flowStatus
  | 0x30 => .linkJoin
  | 0x31 => .linkLeave
  | 0x32 => .linkStatus
  | 0x40 => .readCounters
  | 0x41 => .setParams
  | 0x42 => .readParams
  | 0x43 => .setNotices
  | 0x44 => .restart
  | _ => .unknownRequest

/-- R158, R182, Table 11.4: the body of a request has its length, no flag but those named, codes of Table 11.10,
a flow of 0 to 63, and for a BIND a lease of 1 to 600 s. What a WRITE_TABLE carries, the range that a READ_TABLE
names and the values that a SET_PARAMS carries have statements of their own. -/
def bodyFits (code : Byte) (body : List Byte) : Prop :=
  match code.toNat with
  | 0x01 | 0x03 | 0x12 | 0x30 | 0x31 | 0x32 | 0x42 | 0x44 => body = []
  | 0x02 => ∃ hi lo flags : Byte, body = [hi, lo, flags] ∧ flags.toNat ≤ 1 ∧
      1 ≤ hi.toNat * 256 + lo.toNat ∧ hi.toNat * 256 + lo.toNat ≤ 600
  | 0x10 => ∃ bank table first count : Byte, body = [bank, table, first, count] ∧ bank.toNat ≤ 1 ∧
      table.toNat ≤ 2
  | 0x11 => True
  | 0x13 => body.length = 4
  | 0x20 | 0x21 | 0x22 | 0x23 | 0x24 => ∃ flow : Byte, body = [flow] ∧ flow.toNat ≤ 63
  | 0x40 => ∃ scope flow flags : Byte, body = [scope, flow, flags] ∧ scope.toNat ≤ 1 ∧
      (scope = 1 → flow.toNat ≤ 63) ∧ flags.toNat ≤ 1
  | 0x41 => body.length = 25 ∧ ((body.getD 0 0).getLsbD 5 = true → (body.getD 15 0).toNat ≤ 1)
  | 0x43 => ∃ mask : Byte, body = [mask] ∧ mask.toNat < 8
  | _ => False

/-- R156, R159: a request that does nothing but answer. -/
structure State.OnlyAnswers (s t : State) (r : Request) (status : Status) (body : List Byte) : Prop where
  answers : s.Answers t r status body s.engine.linkReply
  binding : t.engine.binding = s.engine.binding
  state : t.engine.state = .ready
  notices : t.notices = s.notices
  unchanged : s.Unchanged [.engine, .wire, .notices] t

/-- R156, R159: the command's execution answers its request and changes nothing else. -/
def State.answersOnly (s : State) (c : Instr) (r : Request) (status : Status) (body : List Byte) : Prop :=
  ∃ t, exec c s = .next t.finish ∧ s.OnlyAnswers t r status body

/-- R157, R158: the parts of the engine that a request other than BIND, UNBIND and RESTART leaves alone. -/
def State.EngineKept (s t : State) : Prop :=
  t.engine.binding = s.engine.binding ∧ t.engine.state = .ready

/-- R48, R71, R91, R106, R113, R118, R141, R147, R148, R167, R169: a RESTART has been applied in a state. What it
keeps of the ports beside the two transmissions is the model's reading (log entry 20). -/
structure State.Restarted (s t : State) : Prop where
  flows : ∀ f, t.flow f = Flow.initial (s.profile f).rtoBase
  pool : t.pool = Pool.initial
  partnership : t.part = Partnership.initial
  hits : ∀ i, readAt t.hits i = 0
  tables : t.tables = s.tables
  wireQueues : t.wire.managementEgress = [] ∧ ∀ c, readAt t.wire.classQueues c = []
  /-- R91, R147: a frame in transmission goes on, and its end will release nothing and change no queue. -/
  wireTransmitter : t.wire.transmitter = match s.wire.transmitter with
    | .sending _ bytes => .sending .abandoned bytes
    | .idle => .idle
  wiredLink : t.wire.linkUp = s.wire.linkUp
  link : t.link.bulkQueue = [] ∧ t.link.lifecycleOrder = [] ∧ t.link.statusPosition = 0 ∧
    (∀ c, readAt t.link.dataPositions c = 0) ∧ t.link.bulkCredit = 0
  /-- R91, R141: a block in transmission goes on, and its end will release nothing. -/
  linkTransmitter : t.link.transmitter = match s.link.transmitter with
    | .sending _ bytes => .sending .plain bytes
    | .idle => .idle
    | .slotOpen => .slotOpen
  slot : t.link.slotSignal = s.link.slotSignal ∧ t.link.grant = s.link.grant
  routed : t.link.toPartnership = s.link.toPartnership ∧ t.link.toFlows = s.link.toFlows ∧
    t.link.toBulk = s.link.toBulk
  engine : t.engine = Engine.initial
  params : t.params = s.params
  notices : t.notices = { s.notices with queue := [], overrun := false }
  counters : (∀ f, readAt t.flowCounters f = FlowCounters.zero) ∧ t.deviceCounters = DeviceCounters.zero
  /-- The model's own fields and the fuses. -/
  kept : t.epochDraws = s.epochDraws ∧ t.unitId = s.unitId ∧ t.pending = s.pending

end Sys2Proof.Machine
end

