-- ==== Sys2Proof/WellFormed.lean ====
section
/-! DEFINITION. Which commands and link blocks are well formed. The operand types carry the ranges of
flow numbers and classes; what is left to check is what the types do not say. -/

namespace Sys2Proof

/-- 0.6 "Frames and buffers": a valid frame is 60 to 1522 bytes long. -/
def wholeFrame (frame : Frame) : Bool := 60 ≤ frame.length && frame.length ≤ 1522

/-- A block body that the HX604 forms (R179, Table 11.2): an OPEN window of 1 to 64, a STATUS map with
bit 0 clear, and a DATA or BULK frame of 60 to 1522 bytes. -/
def BlockBody.wellFormed : BlockBody → Bool
  | .openFlow _ window _ => 1 ≤ window && window ≤ 64
  | .data _ _ frame => wholeFrame frame
  | .status _ _ map _ => !map.getLsbD 0
  | .bulk _ frame => wholeFrame frame
  | .hello _ _ | .keepalive | .leave | .openAck _ _ | .close _ | .closeAck _ | .abort _
  | .advance _ _ => true

/-- A command that the pins can carry: a reception on the wire holds at least the 4 bytes of its frame
check sequence (0.6), and a delivered block holds at least one byte. The commands on other operands
are total: R103 and R143 say what a shorter reception does. -/
def Instr.wellFormed : Instr → Bool
  | .wireFrameReception received _ => 4 ≤ received.length
  | .linkBlockDelivery received _ => 1 ≤ received.length
  | .powerOnReset | .helloReceived | .keepaliveReceived | .leaveReceived | .openReceived
  | .openAckReceived | .closeReceived | .closeAckReceived | .abortReceived | .dataReceived
  | .advanceReceived | .statusReceived | .bulkReceived | .slotSignalled | .slotWithdrawn
  | .dataGrant | .statusGrant | .lifecycleGrant | .partnershipGrant | .bulkGrant
  | .linkTransmissionEnd | .wireTransmissionEnd | .wiredLinkUp | .wiredLinkDown
  | .retransmissionTimerExpiry _ | .closeSeriesExpiry _ | .openTimerExpiry _
  | .ackDelayTimerExpiry _ | .joinTimerExpiry | .helloTimerExpiry | .silenceTimerExpiry
  | .keepaliveTimerExpiry | .holdTimerExpiry | .leaseTimerExpiry | .identify | .bind | .unbind
  | .readTable | .writeTable | .copyBank | .commit | .flowOpen | .flowClose | .flowAbort
  | .flowReset | .flowStatus | .linkJoin | .linkLeave | .linkStatus | .readCounters | .setParams
  | .readParams | .setNotices | .restart | .unknownRequest => true

end Sys2Proof
end

