-- ==== Sys2Proof/Certificates/Slice0/Obligations.lean ====
section
/-! DEFINITION. The statements for the provers. In a statement `exec c s = .next (State.finish t)`, t is the
command's own effect, and `State.finish` is what follows every happening (R133, R174; see FinishReleasesAndSelects). -/

section

open Sys2Proof Sys2Proof.Machine

/-! ## The machine as a whole -/

/-- A step with a command in front of the queue is that command on the rest of the queue (the model's own
queue; log entry 8). -/
def Obligations.StepRunsFront : Prop :=
  ∀ (c : Instr) (rest : List Instr) (s : State),
    step (s.withPending (c :: rest)) = exec c (s.withPending rest)

/-- With no command waiting one millisecond passes (log entry 6, the model's choice): every running timer of
a flow that is not suspended, of the partnership and of the binding has one millisecond less to run; a
suspended flow's retransmission and ack delay timers are frozen (R19, R41); nothing else changes. -/
def Obligations.EmptyQueueTick : Prop :=
  ∀ s : State, s.pending = [] → ∃ t, step s = .next t ∧
    (∀ f, (s.flow f).suspended = false → t.flow f = { s.flow f with
      openTimer := (s.flow f).openTimer.tick
      retxTimer := (s.flow f).retxTimer.tick
      ackTimer := (s.flow f).ackTimer.tick }) ∧
    (∀ f, (s.flow f).suspended = true → t.flow f = { s.flow f with
      openTimer := (s.flow f).openTimer.tick }) ∧
    t.part = { s.part with
      joinTimer := s.part.joinTimer.tick
      helloTimer := s.part.helloTimer.tick
      silenceTimer := s.part.silenceTimer.tick
      keepaliveTimer := s.part.keepaliveTimer.tick
      holdTimer := s.part.holdTimer.tick } ∧
    t.engine = { s.engine with binding := s.engine.binding.tick } ∧
    s.Unchanged [.flows, .part, .engine] t

/-- On every state each of the 57 commands answers a next state, and that state has the same commands waiting and the
same fused unit identifier: none faults and none is refused. A command whose happening cannot occur in a state (a
grant with none in transit, an expiry of a timer that has not run out, the arrival of a block that is not the first
routed) answers next as well: that is the model's choice (log entry 9). What each command does is in the statements
below. -/
def Obligations.EveryCommandCompletes : Prop :=
  ∀ (c : Instr) (s : State), ∃ t, exec c s = .next t ∧ t.pending = s.pending ∧ t.unitId = s.unitId

/-- R174, R133, R152, R145, Table 11.3: what follows a happening. With no manager bound, no unmarked notice queued or
no room in the path of the binding's origin, only the selection is made. Otherwise the oldest unmarked notice leaves
the queue, the overrun flag clears, its frame joins that path, and the same follows again: so every notice that may
be is released, in order. The class queues, the wired link and every other part stay; a management frame is begun
only by an IDLE transmitter. A notice's frame carries its kind, its tag and code (COMPLETION only), the overrun flag,
the transitions and what Table 11.3 lists. That both follow at the end of a happening is the model's reading (log
entry 14); the clear flag bits 1 to 7 and the selection for a slot that had found nothing offered are its choices
(log entries 30 and 31). -/
def Obligations.FinishReleasesAndSelects : Prop :=
  (∀ s : State, ∃ more replies : List ReplyItem,
     s.Unchanged [.notices, .wire, .engine, .link] s.finish ∧
     s.finish.notices = { s.notices with
       queue := s.finish.notices.queue, overrun := s.finish.notices.overrun } ∧
     s.finish.engine = { s.engine with linkReply := s.engine.linkReply ++ replies } ∧
     s.finish.link = { s.link with grant := s.finish.link.grant } ∧
     (s.link.transmitter ≠ .slotOpen → s.finish.link.grant = s.link.grant) ∧
     s.finish.wire = { s.wire with
       managementEgress := s.wire.managementEgress ++ more, transmitter := s.finish.wire.transmitter } ∧
     (s.wire.transmitter ≠ .idle ∨ s.wire.linkUp = false ∨ more = [] →
       s.finish.wire.transmitter = s.wire.transmitter) ∧
     (∀ item rest, s.wire.transmitter = .idle → s.wire.linkUp = true → more ≠ [] →
       s.wire.managementEgress ++ more = item :: rest →
       s.finish.wire.transmitter = .sending .management (withCheck item.frame))) ∧
  ((∀ s : State, s.engine.binding = .unbound ∨ (∀ n ∈ s.notices.queue, n.held ≠ none) ∨
       (∃ manager origin lease remaining, s.engine.binding = .bound manager origin lease remaining ∧
         s.pathRoom 4 2 origin = false) →
     s.finish = { s with link := { s.link with
       grant := if s.link.transmitter = .slotOpen ∧ s.link.grant = none then s.selection
         else s.link.grant } }) ∧
   (∀ (s : State) (manager : Address) (origin : Origin) (lease remaining : Nat) (before after : List Notice)
       (n : Notice), s.engine.binding = .bound manager origin lease remaining →
     s.pathRoom 4 2 origin = true → s.notices.queue = before ++ n :: after →
     (∀ m ∈ before, m.held ≠ none) → n.held = none →
     s.finish = State.finish (State.replied
       { s with notices := { s.notices with queue := before ++ after, overrun := false } } origin
       ⟨s.noticeFrame n manager, false⟩))) ∧
  (∀ (s : State) (manager : Address) (n : Notice),
     let body := [if s.notices.overrun then 1 else 0] ++ beBytes 2 (n.transitions.getD 0)
     let form := fun (tag : Tag) (code : Byte) (kind : Nat) (rest : List Byte) =>
       formManagement manager s.params.stationAddress s.unitId 3 tag code kind (body ++ rest)
     s.noticeFrame n manager = match n.content with
       | .flowState f old new cause => form 0 0 1 [BitVec.ofNat 8 f.val, BitVec.ofNat 8 (FlowState.code old),
           BitVec.ofNat 8 (FlowState.code new), BitVec.ofNat 8 (FlowCause.code cause)]
       | .linkState old new cause => form 0 0 2 [BitVec.ofNat 8 (LinkState.code old),
           BitVec.ofNat 8 (LinkState.code new), BitVec.ofNat 8 (LinkCause.code cause)]
       | .completion tag code outcome detail => form tag code 3
           [BitVec.ofNat 8 (Completion.code outcome), BitVec.ofNat 8 (detailCode detail)]
       | .poolLow free => form 0 0 4 (beBytes 2 free)) ∧
  (∀ (s : State) (manager : Address) (origin : Origin) (lease remaining : Nat),
     s.engine.binding = .bound manager origin lease remaining →
     (s.finish.notices.queue.all (·.held.isSome)) = true ∨ s.finish.pathRoom 4 2 origin = false)

/-- The values that Tables 1.1, 2.1, 3.2, 4.2, 5.1, 6.3, 7.1, 8.1, 8.2, 9.1, 9.4 and 10.1 give after
power-on reset; a low level on the reset input puts every block at them whatever it held (R48, R71, R91, R106,
R118, R141, R147, R148, R169). That no wired link is up and no slot is
signalled is the model's choice (log entry 19). -/
def Obligations.PowerOnValues : Prop :=
  ((∀ f, (State.reset.flow f).state = .closed ∧ (State.reset.flow f).suspended = false ∧
     (State.reset.flow f).sendQueue = [] ∧ (State.reset.flow f).window = [] ∧
     (State.reset.flow f).lower = 0 ∧ (State.reset.flow f).next = 0 ∧ (State.reset.flow f).rto = 100 ∧
     (State.reset.flow f).retxTimer = .stopped ∧ (State.reset.flow f).expected = 0 ∧
     (State.reset.flow f).reorder = [] ∧ (State.reset.flow f).statusPending = false ∧
     (State.reset.flow f).failureCause = none ∧ (State.reset.flow f).pendingBlock = none ∧
     (State.reset.flow f).deferred = none ∧ State.reset.held f = 0) ∧
   State.reset.pool.free = 512 ∧ State.reset.pool.sharedFree = 512 ∧ State.reset.pool.bulkHeld = 0 ∧
   State.reset.pool.lowArmed = true ∧ State.reset.part.state = .silent ∧
   State.reset.part.ownEpoch = none ∧ State.reset.part.leavePending = none ∧
   State.reset.tables.active = .a ∧ State.reset.tables.generation = 0 ∧
   (∀ bank i, (readAt (State.reset.tables.bank bank).entries i).valid = false) ∧
   (∀ bank f, (readAt (State.reset.tables.bank bank).profiles f).mode = .disabled) ∧
   State.reset.tables.activeBank.default = .bulk 0 ∧ State.reset.link.transmitter = .idle ∧
   State.reset.link.bulkCredit = 0 ∧ State.reset.link.bulkQueue = [] ∧
   State.reset.wire.transmitter = .idle ∧ State.reset.wire.managementEgress = [] ∧
   State.reset.engine.state = .ready ∧ State.reset.engine.binding = .unbound ∧
   State.reset.engine.requests = [] ∧ State.reset.params.stationAddress = State.reset.unitId ∧
   State.reset.params.silenceLimit = 1000 ∧ State.reset.params.keepaliveInterval = 250 ∧
   State.reset.params.holdLimit = 30 ∧ State.reset.params.joinLimit = 60 ∧
   State.reset.notices.queue = [] ∧ State.reset.notices.overrun = false ∧
   State.reset.deviceCounters = DeviceCounters.zero) ∧
  (∀ s : State, ∃ t, exec .powerOnReset s = .next t ∧
     t.flows = tabulate (fun _ => Flow.initial 100) ∧ t.pool = Pool.initial ∧ t.wire = WirePort.initial ∧
     t.link = LinkPort.initial ∧ t.part = Partnership.initial ∧ t.tables = TableStore.initial ∧
     t.hits = Vector.replicate 128 0 ∧ t.engine = Engine.initial ∧ t.params = Params.initial s.unitId ∧
     t.notices = Notices.initial ∧ t.flowCounters = Vector.replicate 64 FlowCounters.zero ∧
     t.deviceCounters = DeviceCounters.zero ∧ t.unitId = s.unitId ∧ t.epochDraws = s.epochDraws ∧
     t.pending = s.pending)

/-! ## Laws that every step keeps -/

/-- The state after power-on reset satisfies every law below. That the station address is individual and not
zero at reset rests on the model's unit identifier (log entry 5). -/
def Obligations.ResetIsSound : Prop :=
  State.reset.PoolLaws ∧ State.reset.BuffersAccounted ∧ State.reset.QueueBounds ∧
    State.reset.WindowLaws ∧ State.reset.PartnershipLaws ∧ State.reset.LifecycleLaws ∧
    State.reset.NoticeLaws ∧ State.reset.ConfigurationLaws

/-- R92, R93, R94, R95, R96, R97: every step keeps the laws of the pool. -/
def Obligations.PoolLawsKept : Prop :=
  ∀ s t : State, s.PoolLaws → step s = .next t → t.PoolLaws

/-- R92: every step keeps each held count equal to the frames that the part stores for its account. -/
def Obligations.BuffersAccountedKept : Prop :=
  ∀ s t : State, s.WindowLaws → s.BuffersAccounted → step s = .next t → t.BuffersAccounted

/-- R138, R151, R156, R157, R170, R172: every step keeps every bounded queue within its bound. -/
def Obligations.QueueBoundsKept : Prop :=
  ∀ s t : State, s.QueueBounds → step s = .next t → t.QueueBounds

/-- R4, R6, R16, R27, R51: every step keeps every flow's window, transmission order, reorder set and timers
whole. -/
def Obligations.WindowLawsKept : Prop :=
  ∀ s t : State, s.WindowLaws → step s = .next t → t.WindowLaws

/-- Table 4.1, R66 to R69, R73 to R87: every step keeps the partnership's timers and records as its state
requires, and every flow where its state allows. -/
def Obligations.PartnershipLawsKept : Prop :=
  ∀ s t : State, s.PartnershipLaws → step s = .next t → t.PartnershipLaws

/-- R135: every step keeps the lifecycle order equal to the flows with a pending lifecycle block. -/
def Obligations.LifecycleLawsKept : Prop :=
  ∀ s t : State, s.LifecycleLaws → step s = .next t → t.LifecycleLaws

/-- R171, R173: every step keeps the notice queue folded, and leaves no notice marked. -/
def Obligations.NoticeLawsKept : Prop :=
  ∀ s t : State, s.NoticeLaws → step s = .next t → t.NoticeLaws

/-- R121, R124, R128, R163: every step keeps both banks and the device parameters in range, and the active
bank without a dangling FLOW action. -/
def Obligations.ConfigurationLawsKept : Prop :=
  ∀ s t : State, s.ConfigurationLaws → step s = .next t → t.ConfigurationLaws

/-! ## Encodings -/

/-- R143, R179, R180: a well-formed block, formed for transmission, is received as itself: its CRC holds, the
checked part is its header and payload, and these read back as the block. Conversely, bytes that read as a block are
the header and payload of that block, which is well formed: any other bytes are malformed. -/
def Obligations.LinkBlockRoundTrip : Prop :=
  (∀ b : LinkBlock, b.body.wellFormed = true →
    checkHolds (formBlock b) = true ∧ readBlock (checkedPart (formBlock b)) = some b) ∧
  (∀ (bytes : List Byte) (b : LinkBlock), readBlock bytes = some b →
    b.body.wellFormed = true ∧ blockBytes b = bytes)

/-- R124, R182, R183, Table 11.7: a table entry within its ranges, reported by READ_TABLE and written back by
WRITE_TABLE, is the same entry. -/
def Obligations.TableEntriesRoundTrip : Prop :=
  (∀ p : Profile, p.inRange = true →
    (profileBytes p).length = 15 ∧ profileOfBytes (profileBytes p) = some p) ∧
  (∀ a : PlainAction, (plainActionBytes a).length = 2 ∧ defaultOfBytes (plainActionBytes a) = some a) ∧
  (∀ e : ClassEntry, fallbackFits e.action e.fallback = true →
    (∀ r ∈ e.priority, r.1 ≤ r.2) →
    (∀ m ∈ e.pattern, m.offset ≤ 127 ∧ 1 ≤ m.bytes.length ∧ m.bytes.length ≤ 4) →
    (classEntryBytes e).length = 33 ∧ classEntryOfBytes (classEntryBytes e) = some e)

/-- R104, R181, Table 11.3: a management frame that the bridge forms is at least 60 bytes long, is untagged
with the management EtherType and its addresses, and its header and body read back. -/
def Obligations.ManagementFrameReadsBack : Prop :=
  ∀ (destination source unit : Address) (kind : Nat) (tag : Tag) (code : Byte) (status : Nat)
    (body : List Byte), 1 ≤ kind → kind ≤ 3 → body.length < 65536 →
    let frame := formManagement destination source unit kind tag code status body
    60 ≤ frame.length ∧ (readFrame frame).destination = destination ∧
      (readFrame frame).source = source ∧ (readFrame frame).tag = none ∧
      (readFrame frame).etherType = 0x9C41 ∧
      readManagement (readFrame frame).payload = some {
        version := 1, kind := kind, tag := tag, code := code, target := unit, body := body }

/-! ## The wire port and the classifier -/

/-- R103, R107, R108, R111, R112: a reception with a bad check, a receive error or a length outside 60..1522 is
discarded and counted as wire rx bad, and does nothing else. A good frame that no entry matches is counted as
wire unmatched; with the default action BULK(c) and the partnership PARTNERED it takes a bulk buffer and joins
the tail of the link bulk queue, and without a partner or a buffer it is counted as dropped; with the default
action DISCARD nothing else happens. -/
def Obligations.BadAndUnmatchedFrames : Prop :=
  (∀ (s : State) (received : List Byte) (receiveError : Bool),
     checkHolds received = false ∨ receiveError = true ∨ (checkedPart received).length < 60 ∨
       1522 < (checkedPart received).length →
     exec (.wireFrameReception received receiveError) s = .next (State.finish { s with
       deviceCounters := { s.deviceCounters with wireRxBad := s.deviceCounters.wireRxBad + 1 } })) ∧
  (∀ (s : State) (received : List Byte) (cls : PortClass),
     receptionGood received false = true → s.isManagement (readFrame (checkedPart received)) = false →
     s.tables.activeBank.Undecided (readFrame (checkedPart received)) →
     s.tables.activeBank.default = .bulk cls → s.part.state = .partnered →
     s.pool.bulkHeld < s.params.bulkCap → 1 ≤ s.pool.sharedFree →
     s.engine.executing = none →
     ∃ t, exec (.wireFrameReception received false) s = .next t.finish ∧
       t.link = { s.link with bulkQueue := s.link.bulkQueue ++ [⟨cls, checkedPart received⟩] } ∧
       t.pool.free = s.pool.free - 1 ∧ t.pool.bulkHeld = s.pool.bulkHeld + 1 ∧
       t.pool.held = s.pool.held ∧ t.pool.reservation = s.pool.reservation ∧
       t.deviceCounters = { s.deviceCounters with wireUnmatched := s.deviceCounters.wireUnmatched + 1 } ∧
       s.Raises t [] ∧ s.Unchanged [.pool, .link, .deviceCounters, .notices] t) ∧
  (∀ (s : State) (received : List Byte),
     receptionGood received false = true → s.isManagement (readFrame (checkedPart received)) = false →
     s.tables.activeBank.Undecided (readFrame (checkedPart received)) →
     let c := { s.deviceCounters with wireUnmatched := s.deviceCounters.wireUnmatched + 1 }
     (s.tables.activeBank.default = .discard →
       exec (.wireFrameReception received false) s = .next (State.finish { s with deviceCounters := c })) ∧
     (∀ cls, s.tables.activeBank.default = .bulk cls → ¬ s.HasBulkRoom →
       exec (.wireFrameReception received false) s = .next (State.finish { s with
         deviceCounters := { c with bulkDropped := c.bulkDropped + 1 } })))

/-- R2, R96, R97, R103, R104, R105, R106, R107, R108, R109, R110, R111: a good frame that is not for management
raises the hit count of its first matching entry. Under FLOW(f) with f OPEN it takes a buffer and joins the tail of
f's send queue, counted as tx accepted, or without a buffer is counted as tx refused; with f not OPEN it is counted
as tx diverted and meets the fallback. Under DISCARD, of the entry or its fallback, nothing else happens; under
BULK(c) the frame takes a bulk buffer and joins the tail of the link bulk queue, or without a partner or a buffer is
counted as dropped. An untagged frame is read as its addresses, its EtherType and the payload from byte 14; a tagged
one with its priority and VLAN ID, the EtherType of bytes 16 and 17 and the payload from byte 18. A frame is for
management when its EtherType is 0x9C41 and its destination the station address or the broadcast address. An entry
decides a frame when it is the first, in index order, that is valid and whose present match fields all match; with
none, none does. -/
def Obligations.FlowFrameTakenOrDiverted : Prop :=
  (((∀ (destination source : Address) (etherType : BitVec 16) (payload : List Byte), etherType ≠ 0x8100 →
      readFrame (beBytes 6 destination.toNat ++ beBytes 6 source.toNat ++ beBytes 2 etherType.toNat ++ payload) =
        ⟨destination, source, none, etherType, payload⟩) ∧
    (∀ (destination source : Address) (priority : BitVec 3) (unread : BitVec 1) (vid : BitVec 12)
      (etherType : BitVec 16) (payload : List Byte),
      readFrame (beBytes 6 destination.toNat ++ beBytes 6 source.toNat ++ beBytes 2 0x8100 ++
          beBytes 2 (priority ++ unread ++ vid).toNat ++ beBytes 2 etherType.toNat ++ payload) =
        ⟨destination, source, some (priority, vid), etherType, payload⟩)) ∧
   (∀ (s : State) (v : FrameView), s.isManagement v = true ↔
      v.etherType = 0x9C41 ∧ (v.destination = s.params.stationAddress ∨ v.destination = BitVec.allOnes 48)) ∧
   (∀ (b : Bank) (v : FrameView), (∀ i, b.classify v = some i ↔ b.DecidedBy v i) ∧
      (b.classify v = none ↔ b.Undecided v))) ∧
  (∀ (s : State) (received : List Byte) (i : Fin 128) (f : FlowId),
     receptionGood received false = true → s.isManagement (readFrame (checkedPart received)) = false →
     s.tables.activeBank.classify (readFrame (checkedPart received)) = some i →
     (readAt s.tables.activeBank.entries i).action = .flow f → (s.flow f).state = .opened →
     s.held f < (s.profile f).cap →
     (s.held f < readAt s.pool.reservation f ∨ 1 ≤ s.pool.sharedFree) →
     s.engine.executing = none →
     ∃ t, exec (.wireFrameReception received false) s = .next t.finish ∧
       t.flow f = { s.flow f with sendQueue := (s.flow f).sendQueue ++ [checkedPart received] } ∧
       (∀ k, k ≠ f → t.flow k = s.flow k) ∧
       t.pool.free = s.pool.free - 1 ∧ t.held f = s.held f + 1 ∧
       (∀ k, k ≠ f → t.held k = s.held k) ∧ t.pool.reservation = s.pool.reservation ∧
       t.pool.bulkHeld = s.pool.bulkHeld ∧
       t.hits = writeAt s.hits i (readAt s.hits i + 1) ∧
       t.flowCounters = writeAt s.flowCounters f { readAt s.flowCounters f with
         txAccepted := (readAt s.flowCounters f).txAccepted + 1 } ∧
       s.Raises t [] ∧ s.Unchanged [.flows, .pool, .hits, .flowCounters, .notices] t) ∧
  (∀ (s : State) (received : List Byte) (i : Fin 128) (f : FlowId),
     receptionGood received false = true → s.isManagement (readFrame (checkedPart received)) = false →
     s.tables.activeBank.classify (readFrame (checkedPart received)) = some i →
     (readAt s.tables.activeBank.entries i).action = .flow f →
     (readAt s.tables.activeBank.entries i).fallback = some .discard → (s.flow f).state ≠ .opened →
     exec (.wireFrameReception received false) s = .next (State.finish { s with
       hits := writeAt s.hits i (readAt s.hits i + 1)
       flowCounters := writeAt s.flowCounters f { readAt s.flowCounters f with
         txDiverted := (readAt s.flowCounters f).txDiverted + 1 } })) ∧
  (∀ (s : State) (received : List Byte) (i : Fin 128),
     receptionGood received false = true → s.isManagement (readFrame (checkedPart received)) = false →
     s.tables.activeBank.classify (readFrame (checkedPart received)) = some i →
     let e := readAt s.tables.activeBank.entries i
     let hits := writeAt s.hits i (readAt s.hits i + 1)
     let dropped := { s.deviceCounters with bulkDropped := s.deviceCounters.bulkDropped + 1 }
     (∀ f, e.action = .flow f → (s.flow f).state = .opened → ¬ s.HasBufferFor f →
       exec (.wireFrameReception received false) s = .next (State.finish { s with
         hits := hits
         flowCounters := writeAt s.flowCounters f { readAt s.flowCounters f with
           txRefused := (readAt s.flowCounters f).txRefused + 1 } })) ∧
     (∀ f cls, e.action = .flow f → (s.flow f).state ≠ .opened → e.fallback = some (.bulk cls) →
       let counters := writeAt s.flowCounters f { readAt s.flowCounters f with
         txDiverted := (readAt s.flowCounters f).txDiverted + 1 }
       (s.HasBulkRoom → s.engine.executing = none →
         ∃ t, exec (.wireFrameReception received false) s = .next t.finish ∧
           s.BulkQueued t cls (checkedPart received) ∧ t.hits = hits ∧ t.flowCounters = counters ∧
           s.Unchanged [.pool, .link, .hits, .flowCounters, .notices] t) ∧
       (¬ s.HasBulkRoom →
         exec (.wireFrameReception received false) s = .next (State.finish { s with
           hits := hits, flowCounters := counters, deviceCounters := dropped }))) ∧
     (e.action = .discard →
       exec (.wireFrameReception received false) s = .next (State.finish { s with hits := hits })) ∧
     (∀ cls, e.action = .bulk cls →
       (s.HasBulkRoom → s.engine.executing = none →
         ∃ t, exec (.wireFrameReception received false) s = .next t.finish ∧
           s.BulkQueued t cls (checkedPart received) ∧ t.hits = hits ∧
           s.Unchanged [.pool, .link, .hits, .notices] t) ∧
       (¬ s.HasBulkRoom →
         exec (.wireFrameReception received false) s = .next (State.finish { s with
           hits := hits, deviceCounters := dropped }))))

/-- R105, R149, R150, R151, R153: a request frame from the wire that passes the screen, the binding check and
the record, with room in the queue, is appended to the request queue; from the bound manager it restarts the
lease timer with the lease duration. -/
def Obligations.RequestQueued : Prop :=
  ∀ (s : State) (received : List Byte) (h : ManagementHeader) (manager : Address) (origin : Origin)
    (lease remaining : Nat),
    let v := readFrame (checkedPart received)
    receptionGood received false = true → v.etherType = 0x9C41 →
    v.destination = s.params.stationAddress → v.destination ≠ broadcastAddress →
    readManagement v.payload = some h → h.version = 1 → h.kind = 1 → isGroup v.source = false →
    s.engine.state = .ready → s.engine.binding = .bound manager origin lease remaining →
    v.source = manager → s.engine.recorded v.source h.tag = none →
    s.engine.queued v.source h.tag = false → s.engine.requests.length < 8 →
    exec (.wireFrameReception received false) s = .next (State.finish { s with
      engine := { s.engine with
        requests := s.engine.requests ++ [⟨v.source, .wire, h.tag, h.code, h.body⟩]
        binding := .bound manager origin lease (lease * 1000) } })

/-- R92, R98, R99, R100, R145, R146, R147: the end of the transmission of a frame of a flow or of the bulk account
returns its buffer to free from that account, and the end of a management frame's removes it from the management
egress. A frame in transmission when a restart was applied releases nothing and changes no queue. With the wired link
up the transmitter then takes the head of the management egress, or else the head of the highest class queue that
holds a frame, and otherwise becomes IDLE. When the wired link comes up an IDLE transmitter takes a frame in the same
way, and one that sends goes on; when it goes down the frame in transmission is treated as sent and no frame is
taken. The end of the RESTART response's frame is in RestartApplied. That a WIRED_LINK_UP at a transmitter that sends
has no other effect is the model's choice (log entry 9). -/
def Obligations.WireTransmitterTakesAndReleases : Prop :=
  (∀ (s : State) (account : Account) (bytes : List Byte),
     s.wire.transmitter = .sending (.account account) bytes → s.HoldsFor account →
     s.engine.executing = none →
     (∃ t, exec .wireTransmissionEnd s = .next t.finish ∧ s.BufferReturned t account ∧
       s.wire.TakesNext t.wire ∧ s.Unchanged [.pool, .wire, .notices] t) ∧
     (∃ t, exec .wiredLinkDown s = .next t.finish ∧ s.BufferReturned t account ∧
       t.wire = { s.wire with linkUp := false, transmitter := .idle } ∧
       s.Unchanged [.pool, .wire, .notices] t)) ∧
  (∀ (s : State) (bytes : List Byte) (sent : ReplyItem) (rest : List ReplyItem),
     s.wire.transmitter = .sending .management bytes → s.wire.managementEgress = sent :: rest →
     sent.restartResponse = false →
     (∃ w, exec .wireTransmissionEnd s = .next (State.finish { s with wire := w }) ∧
       WirePort.TakesNext { s.wire with managementEgress := rest } w) ∧
     exec .wiredLinkDown s = .next (State.finish { s with
       wire := { s.wire with linkUp := false, managementEgress := rest, transmitter := .idle } })) ∧
  (∀ (s : State) (bytes : List Byte), s.wire.transmitter = .sending .abandoned bytes →
     (∃ w, exec .wireTransmissionEnd s = .next (State.finish { s with wire := w }) ∧
       s.wire.TakesNext w) ∧
     exec .wiredLinkDown s = .next (State.finish { s with
       wire := { s.wire with linkUp := false, transmitter := .idle } })) ∧
  ((∀ s : State, s.wire.transmitter = .idle →
     (∃ w, exec .wiredLinkUp s = .next (State.finish { s with wire := w }) ∧
       WirePort.TakesNext { s.wire with linkUp := true } w) ∧
     exec .wiredLinkDown s = .next (State.finish { s with wire := { s.wire with linkUp := false } })) ∧
   (∀ (s : State) (owner : WireOwner) (bytes : List Byte), s.wire.transmitter = .sending owner bytes →
     exec .wiredLinkUp s = .next (State.finish { s with wire := { s.wire with linkUp := true } })))

/-! ## The link port -/

/-- R143, R144: a delivered block in error or with a bad CRC is counted as link rx bad, one that does not
read as a block of this manual as link rx malformed, and neither does anything else; any other is counted
as received and routed by its kind, behind those routed before it. The test of R88
follows where the block arrives (log entry 10, the model's reading). -/
def Obligations.DeliveredBlockDispatched : Prop :=
  ∀ (s : State) (received : List Byte) (receivedInError : Bool),
    (receivedInError = true ∨ checkHolds received = false →
      exec (.linkBlockDelivery received receivedInError) s = .next (State.finish { s with
        deviceCounters := { s.deviceCounters with linkRxBad := s.deviceCounters.linkRxBad + 1 } })) ∧
    (receivedInError = false → checkHolds received = true → readBlock (checkedPart received) = none →
      exec (.linkBlockDelivery received receivedInError) s = .next (State.finish { s with
        deviceCounters := { s.deviceCounters with
          linkRxMalformed := s.deviceCounters.linkRxMalformed + 1 } })) ∧
    (∀ b, receivedInError = false → checkHolds received = true →
      readBlock (checkedPart received) = some b →
      exec (.linkBlockDelivery received receivedInError) s = .next (State.finish { s with
        deviceCounters := { s.deviceCounters with blocksReceived := s.deviceCounters.blocksReceived + 1 }
        link := match b.body with
          | .hello _ _ | .keepalive | .leave =>
            { s.link with toPartnership := s.link.toPartnership ++ [b] }
          | .bulk _ _ => { s.link with toBulk := s.link.toBulk ++ [b] }
          | .openFlow _ _ _ | .openAck _ _ | .close _ | .closeAck _ | .abort _ | .data _ _ _
          | .status _ _ _ _ | .advance _ _ => { s.link with toFlows := s.link.toFlows ++ [b] } }))

/-- R99, R133, R139, R140, R152: a slot signalled in IDLE opens the slot; one signalled while a block is sent
is remembered and the block goes on. A slot withdrawn while it is open returns the transmitter to IDLE, and the
grant in transit takes nothing; a withdrawal while a block is sent does not stop the block. The end of a block's
transmission opens the next slot if one is signalled, and leaves the transmitter IDLE otherwise; for a BULK block
from the link bulk queue it returns the buffer to free from the bulk account, for one from the link reply queue
it removes the frame from that queue, and for a block that holds no buffer it does nothing else. That a signal
serves one block, and that a withdrawal forgets the grant, are the model's readings (log entries 11 and 12). -/
def Obligations.SlotsAndTransmissionEnds : Prop :=
  (((∀ s : State, s.link.transmitter = .idle →
      exec .slotSignalled s = .next (State.finish { s with
        link := { s.link with slotSignal := true, transmitter := .slotOpen } })) ∧
    (∀ (s : State) (owner : LinkOwner) (bytes : List Byte), s.link.transmitter = .sending owner bytes →
      exec .slotSignalled s = .next (State.finish { s with link := { s.link with slotSignal := true } }))) ∧
   ((∀ s : State, s.link.transmitter = .slotOpen →
      exec .slotWithdrawn s = .next (State.finish { s with
        link := { s.link with slotSignal := false, transmitter := .idle, grant := none } })) ∧
    (∀ (s : State) (owner : LinkOwner) (bytes : List Byte), s.link.transmitter = .sending owner bytes →
      exec .slotWithdrawn s = .next (State.finish { s with link := { s.link with slotSignal := false } })))) ∧
  (((∀ (s : State) (bytes : List Byte), s.link.transmitter = .sending .plain bytes →
      exec .linkTransmissionEnd s = .next (State.finish { s with
        link := { s.link with transmitter := if s.link.slotSignal then .slotOpen else .idle } })) ∧
    (∀ (s : State) (bytes : List Byte), s.link.transmitter = .sending .bulkBuffer bytes →
      1 ≤ s.pool.bulkHeld →
      s.engine.executing = none →
      ∃ t, exec .linkTransmissionEnd s = .next t.finish ∧
        t.link = { s.link with transmitter := if s.link.slotSignal then .slotOpen else .idle } ∧
        t.pool.bulkHeld = s.pool.bulkHeld - 1 ∧ t.pool.free = s.pool.free + 1 ∧
        t.pool.held = s.pool.held ∧ t.pool.reservation = s.pool.reservation ∧
        s.Raises t [] ∧ s.Unchanged [.link, .pool, .notices] t)) ∧
   (∀ (s : State) (bytes : List Byte) (item : ReplyItem) (rest : List ReplyItem),
      s.link.transmitter = .sending .linkReply bytes → s.engine.linkReply = item :: rest →
      item.restartResponse = false →
      exec .linkTransmissionEnd s = .next (State.finish { s with
        link := { s.link with transmitter := if s.link.slotSignal then .slotOpen else .idle }
        engine := { s.engine with linkReply := rest } })))

/-- R7, R42, R50, R74, R134, R135, R136, R137, R138, R152: with a slot open and no grant in transit, the end of a
happening grants the slot to the first category with an offer, categories 2 to 5 only while PARTNERED. The
partnership offers a pending LEAVE, a pending HELLO outside SILENT, and a pending KEEPALIVE in PARTNERED. The
lifecycle category offers the first flow of the lifecycle order with a pending block that is not suspended. The
STATUS category offers the first flow that offers a STATUS, upward from the STATUS position and wrapping; the data
category offers a flow of the highest link class with an offer, upward from that class's position. A category offers
nothing exactly when no flow offers in it: a STATUS is offered while it is pending in OPEN, DRAINING or CLOSING, and
data in OPEN or DRAINING with a due entry, or with a frame to send and room in the window, in each case unless the
flow is suspended. Bulk is offered while the link reply queue or the link bulk queue holds a frame. That no selection
is made while a grant is in transit, and that a HELLO or KEEPALIVE is not offered for want of an own epoch, in a state
that no run reaches, are the model's readings (log entry 11). -/
def Obligations.SelectionOrder : Prop :=
  (∀ s : State, s.link.transmitter = .slotOpen → s.link.grant = none →
     (s.part.offers = true → s.select.link.grant = some .partnership) ∧
     (s.part.offers = false → s.part.state ≠ .partnered → s.select.link.grant = none) ∧
     (s.part.offers = false → s.part.state = .partnered → s.part.ownEpoch.isSome →
       (∀ f, s.lifecycleOffer = some f → s.select.link.grant = some (.lifecycle f)) ∧
       (∀ f, s.lifecycleOffer = none → s.statusOffer = some f →
         s.select.link.grant = some (.status f)) ∧
       (∀ f cls, s.lifecycleOffer = none → s.statusOffer = none → s.dataOffer = some (f, cls) →
         s.select.link.grant =
           if s.offersBulk = true ∧ s.link.bulkCredit = 15 then some .bulk else some (.data f cls)) ∧
       (s.lifecycleOffer = none → s.statusOffer = none → s.dataOffer = none →
         s.select.link.grant = if s.offersBulk then some .bulk else none))) ∧
  ((∀ (s : State) (f : FlowId), s.statusOffer = some f →
     (s.flow f).offersStatus = true ∧
       ∀ k : FlowId, k - s.link.statusPosition < f - s.link.statusPosition →
         (s.flow k).offersStatus = false) ∧
   (∀ (s : State) (f : FlowId) (cls : PortClass), s.dataOffer = some (f, cls) →
     s.offersData f = true ∧ (s.profile f).linkClass = cls ∧
       (∀ k : FlowId, s.offersData k = true → (s.profile k).linkClass ≤ cls) ∧
       ∀ k : FlowId, (s.profile k).linkClass = cls →
         k - readAt s.link.dataPositions cls < f - readAt s.link.dataPositions cls →
         s.offersData k = false)) ∧
  ((∀ p : Partnership, p.offers = true ↔ p.leavePending ≠ none ∨
     (p.ownEpoch ≠ none ∧ ((p.helloPending = true ∧ p.state ≠ .silent) ∨
       (p.keepalivePending = true ∧ p.state = .partnered)))) ∧
   (∀ s : State,
     (∀ f, s.lifecycleOffer = some f ↔ ∃ before after, s.link.lifecycleOrder = before ++ f :: after ∧
       (s.flow f).OwesFreely ∧ ∀ k ∈ before, ¬ (s.flow k).OwesFreely) ∧
     (s.lifecycleOffer = none ↔ ∀ k ∈ s.link.lifecycleOrder, ¬ (s.flow k).OwesFreely) ∧
     (s.statusOffer = none ↔ ∀ f, (s.flow f).offersStatus = false) ∧
     (s.dataOffer = none ↔ ∀ f, s.offersData f = false) ∧
     (s.offersBulk = true ↔ s.engine.linkReply ≠ [] ∨ s.link.bulkQueue ≠ []) ∧
     (∀ f, let fl := s.flow f
       (fl.offersStatus = true ↔ fl.statusPending = true ∧ fl.suspended = false ∧
         (fl.state = .opened ∨ fl.state = .draining ∨ fl.state = .closing)) ∧
       (s.offersData f = true ↔ fl.suspended = false ∧ (fl.state = .opened ∨ fl.state = .draining) ∧
         ((∃ e ∈ fl.window, e.IsDue) ∨
           (fl.sendQueue ≠ [] ∧ fl.window.length < (s.profile f).window))))))

/-- R7, R8, R9, R20, R133, R137, R138, R139, R140: a data grant at an unsuspended OPEN or DRAINING flow. With no due
entry, a frame in its send queue and room in its window it sends the frame as new data. Else it serves the due entry
of lowest sequence, before which no entry of the window is due (log entry 22). One that serves a lost frame
whose transmissions are below 1 + retry limit sends it again in a DATA block; the entry becomes OUTSTANDING with one
transmission more and moves to the end of the transmission-order list. One that serves a SKIPPED, DUE entry below
that limit sends its ADVANCE again in the same way. A grant that finds the flow offering no data is declined: it
changes nothing but the grant in transit, and the slot is selected for again as at the end of every happening
(FinishReleasesAndSelects). That a presented block consumes the slot's signal, and that nothing is sent for want of
an own epoch in a state that no run reaches, are the model's choices (log entries 12 and 11). -/
def Obligations.DataGrantSends : Prop :=
  (∀ (s : State) (f : FlowId) (cls : PortClass) (epoch : Epoch) (frame : Frame) (rest : List Frame),
     s.link.grant = some (.data f cls) → s.part.state = .partnered → s.part.ownEpoch = some epoch →
     ((s.flow f).state = .opened ∨ (s.flow f).state = .draining) → (s.flow f).suspended = false →
     (∀ e ∈ (s.flow f).window, ¬ e.IsDue) → (s.flow f).sendQueue = frame :: rest →
     (s.flow f).window.length < (s.profile f).window →
     let fl := s.flow f
     let p := s.presenting .plain ⟨epoch, .data f fl.next frame⟩
     exec .dataGrant s = .next (State.finish { p with
       flows := writeAt s.flows f { fl with
         sendQueue := rest
         window := fl.window ++ [⟨fl.next, .outstanding frame, 1⟩]
         txOrder := fl.txOrder ++ [fl.next]
         next := fl.next + 1
         retxTimer := if fl.retxTimer = .stopped then .running fl.rto else fl.retxTimer }
       link := { p.link with
         dataPositions := writeAt s.link.dataPositions cls (f + 1)
         bulkCredit := if s.link.bulkCredit < 15 then s.link.bulkCredit + 1 else s.link.bulkCredit }
       flowCounters := writeAt s.flowCounters f { readAt s.flowCounters f with
         dataSent := (readAt s.flowCounters f).dataSent + 1 } })) ∧
  (∀ (s : State) (f : FlowId) (cls : PortClass) (epoch : Epoch) (q : Seq) (n : Nat) (frame : Frame)
     (older newer : List WindowEntry),
     s.link.grant = some (.data f cls) → s.part.state = .partnered → s.part.ownEpoch = some epoch →
     ((s.flow f).state = .opened ∨ (s.flow f).state = .draining) → (s.flow f).suspended = false →
     (s.flow f).ServesFirst older ⟨q, .pendingRetx frame, n⟩ newer → n < 1 + (s.profile f).retryLimit →
     (∀ e ∈ (s.flow f).window, e.seq = q → e = ⟨q, .pendingRetx frame, n⟩) →
     let fl := s.flow f
     let p := s.presenting .plain ⟨epoch, .data f q frame⟩
     exec .dataGrant s = .next (State.finish { p with
       flows := writeAt s.flows f { fl with
         window := fl.window.map fun e => if e.seq = q then ⟨q, .outstanding frame, n + 1⟩ else e
         txOrder := fl.txOrder.filter (· ≠ q) ++ [q]
         retxTimer := if fl.retxTimer = .stopped then .running fl.rto else fl.retxTimer }
       link := { p.link with
         dataPositions := writeAt s.link.dataPositions cls (f + 1)
         bulkCredit := if s.link.bulkCredit < 15 then s.link.bulkCredit + 1 else s.link.bulkCredit }
       flowCounters := writeAt s.flowCounters f { readAt s.flowCounters f with
         dataRetransmitted := (readAt s.flowCounters f).dataRetransmitted + 1 } })) ∧
  (∀ (s : State) (f : FlowId) (cls : PortClass) (epoch : Epoch) (q : Seq) (n : Nat)
     (older newer : List WindowEntry),
     s.link.grant = some (.data f cls) → s.part.state = .partnered → s.part.ownEpoch = some epoch →
     ((s.flow f).state = .opened ∨ (s.flow f).state = .draining) → (s.flow f).suspended = false →
     (s.flow f).ServesFirst older ⟨q, .skipped .due, n⟩ newer → n < 1 + (s.profile f).retryLimit →
     (∀ e ∈ (s.flow f).window, e.seq = q → e = ⟨q, .skipped .due, n⟩) →
     let fl := s.flow f
     let p := s.presenting .plain ⟨epoch, .advance f q⟩
     exec .dataGrant s = .next (State.finish { p with
       flows := writeAt s.flows f { fl with
         window := fl.window.map fun e => if e.seq = q then ⟨q, .skipped .sent, n + 1⟩ else e
         txOrder := fl.txOrder.filter (· ≠ q) ++ [q]
         retxTimer := if fl.retxTimer = .stopped then .running fl.rto else fl.retxTimer }
       link := { p.link with
         dataPositions := writeAt s.link.dataPositions cls (f + 1)
         bulkCredit := if s.link.bulkCredit < 15 then s.link.bulkCredit + 1 else s.link.bulkCredit }
       flowCounters := writeAt s.flowCounters f { readAt s.flowCounters f with
         dataRetransmitted := (readAt s.flowCounters f).dataRetransmitted + 1 } })) ∧
  (∀ (s : State) (f : FlowId) (cls : PortClass), s.link.grant = some (.data f cls) →
     s.part.state ≠ .partnered ∨ s.part.ownEpoch = none ∨
       ((s.flow f).state ≠ .opened ∧ (s.flow f).state ≠ .draining) ∨ (s.flow f).suspended = true ∨
       ((∀ e ∈ (s.flow f).window, ¬ e.IsDue) ∧
         ((s.flow f).sendQueue = [] ∨ (s.profile f).window ≤ (s.flow f).window.length)) →
     exec .dataGrant s = .next s.declined.finish)

/-- R8, R21, R22, R51, R63, R82, R137, R138, R140: a data grant that serves the due entry of lowest sequence, before
which no entry of the window is due (log entry 22), when its transmissions have reached 1 + retry limit. A lost frame
under policy SKIP is given up: one buffer of the flow returns to free, the entry becomes SKIPPED, SENT with
transmissions 1, and its ADVANCE is presented as by any data grant that is taken: the data position of the class
becomes the flow after this one, the bulk credit rises below 15, the keepalive timer restarts and blocks transmitted
rises. For a lost frame under policy FAIL, and for a SKIPPED entry under either policy, nothing is sent: the flow
enters FAILED with RETRY_EXHAUSTED under R51 and owes an ABORT, which joins the tail of the lifecycle order. That a
presented block consumes the slot's signal is the model's choice (log entry 12), and the order of the causes its
reading (log entry 13). -/
def Obligations.ExhaustedEntryServed : Prop :=
  (∀ (s : State) (f : FlowId) (cls : PortClass) (epoch : Epoch) (q : Seq) (n : Nat) (frame : Frame)
     (older newer : List WindowEntry),
     s.link.grant = some (.data f cls) → s.part.state = .partnered → s.part.ownEpoch = some epoch →
     ((s.flow f).state = .opened ∨ (s.flow f).state = .draining) → (s.flow f).suspended = false →
     (s.flow f).ServesFirst older ⟨q, .pendingRetx frame, n⟩ newer → 1 + (s.profile f).retryLimit ≤ n →
     (s.profile f).exhaustion = .skip → 1 ≤ s.held f →
     let fl := s.flow f
     let p := s.presenting .plain ⟨epoch, .advance f q⟩
     s.engine.executing = none →
     ∃ t, exec .dataGrant s = .next t.finish ∧
       t.flow f = { fl with
         window := fl.window.map fun e => if e.seq = q then ⟨q, .skipped .sent, 1⟩ else e
         txOrder := fl.txOrder.filter (· ≠ q) ++ [q]
         retxTimer := if fl.retxTimer = .stopped then .running fl.rto else fl.retxTimer } ∧
       (∀ k, k ≠ f → t.flow k = s.flow k) ∧
       t.held f = s.held f - 1 ∧ (∀ k, k ≠ f → t.held k = s.held k) ∧
       t.pool.free = s.pool.free + 1 ∧ t.pool.reservation = s.pool.reservation ∧
       t.pool.bulkHeld = s.pool.bulkHeld ∧
       t.link = { p.link with
         dataPositions := writeAt s.link.dataPositions cls (f + 1)
         bulkCredit := if s.link.bulkCredit < 15 then s.link.bulkCredit + 1 else s.link.bulkCredit } ∧
       t.flowCounters = writeAt s.flowCounters f { readAt s.flowCounters f with
         skipped := (readAt s.flowCounters f).skipped + 1 } ∧
       s.Raises t [] ∧ p.Unchanged [.flows, .pool, .link, .flowCounters, .notices] t) ∧
  (∀ (s : State) (f : FlowId) (cls : PortClass) (epoch : Epoch) (e : WindowEntry)
     (older newer : List WindowEntry),
     s.link.grant = some (.data f cls) → s.part.state = .partnered → s.part.ownEpoch = some epoch →
     ((s.flow f).state = .opened ∨ (s.flow f).state = .draining) → (s.flow f).suspended = false →
     (s.flow f).ServesFirst older e newer → 1 + (s.profile f).retryLimit ≤ e.transmissions →
     e.condition = .skipped .due ∨
       ((∃ frame, e.condition = .pendingRetx frame) ∧ (s.profile f).exhaustion = .fail) →
     (s.flow f).collectedBuffers ≤ s.held f →
     s.engine.executing = none →
     ∃ t, exec .dataGrant s = .next t.finish ∧ s.FlowEnded t f .failed ∧
       (t.flow f).failureCause = some .retryExhausted ∧ (t.flow f).pendingBlock = some .abort ∧
       t.link = { s.link with
         grant := none, lifecycleOrder := s.link.lifecycleOrder.filter (· ≠ f) ++ [f] } ∧
       s.Raises t ((s.flow f).completion (fun _ => (.aborted, some .retryExhausted)) ++
         [.flowState f (s.flow f).state .failed .retryExhausted]) ∧
       s.Unchanged [.flows, .pool, .link, .notices] t)

/-- R42, R43, R82, R133, R136, R139, R140: a STATUS grant at a flow that offers a STATUS sends one with A equal to E,
position k of the map set exactly when the reorder set holds a member for E + k, and the high mark of the last
member; status pending is cleared, data since status returns to 0 and the ack delay timer stops. A grant that finds
the flow offering no STATUS is declined: it changes nothing but the grant in transit, and the slot is selected for
again as at the end of every happening (FinishReleasesAndSelects). That a presented block consumes the slot's signal,
and that nothing is sent for want of an own epoch in a state that no run reaches, are the model's choices (log
entries 12 and 11). -/
def Obligations.StatusGrantFormsStatus : Prop :=
  (∀ (s : State) (f : FlowId) (epoch : Epoch),
    s.link.grant = some (.status f) → s.part.state = .partnered → s.part.ownEpoch = some epoch →
    (s.flow f).statusPending = true → (s.flow f).suspended = false →
    ((s.flow f).state = .opened ∨ (s.flow f).state = .draining ∨ (s.flow f).state = .closing) →
    let fl := s.flow f
    ∃ map : BitVec 64,
      map.getLsbD 0 = false ∧
      (∀ k : Nat, 1 ≤ k → k ≤ 63 →
        map.getLsbD k = fl.reorder.any (·.seq == fl.expected + BitVec.ofNat 12 k)) ∧
      let p := s.presenting .plain
        ⟨epoch, .status f fl.expected map (fl.reorder.getLast?.map (·.seq))⟩
      exec .statusGrant s = .next (State.finish { p with
        flows := writeAt s.flows f { fl with
          statusPending := false, dataSince := 0, ackTimer := .stopped }
        link := { p.link with statusPosition := f + 1 } })) ∧
  (∀ (s : State) (f : FlowId), s.link.grant = some (.status f) →
    s.part.state ≠ .partnered ∨ s.part.ownEpoch = none ∨ (s.flow f).statusPending = false ∨
      (s.flow f).suspended = true ∨
      ((s.flow f).state ≠ .opened ∧ (s.flow f).state ≠ .draining ∧ (s.flow f).state ≠ .closing) →
    exec .statusGrant s = .next s.declined.finish)

/-- R50, R53, R55, R58, R59, R60, R82, R133, R135, R139, R140: a lifecycle grant takes the flow's pending block,
which leaves the lifecycle order. Taking an OPEN raises attempts and starts the open timer with 250 ms; taking a
CLOSE raises attempts and starts the retransmission timer with the current RTO. Taking the OPEN_ACK that displaced an
OPEN, or the CLOSE_ACK that displaced a CLOSE, makes that block pending again (a stopped timer shows it, log entry
7). Any other OPEN_ACK, CLOSE_ACK or ABORT ends a drain that waited for nothing else, and otherwise does nothing
else. A grant that finds no pending block, a suspended flow or another partnership state is declined: it changes
nothing but the grant in transit, and the slot is selected for again as at the end of every happening
(FinishReleasesAndSelects). These are the model's choices: a presented block consumes the slot's signal (log entry
12), a request still held at a drain of origin PEER is completed DONE (log entry 23), nothing is sent for want of an
own epoch in a state that no run reaches (log entry 11), and the order of the causes (log entry 13). -/
def Obligations.LifecycleGrantTakesBlock : Prop :=
  (∀ (s : State) (f : FlowId), s.link.grant = some (.lifecycle f) →
    s.part.state ≠ .partnered ∨ s.part.ownEpoch = none ∨ (s.flow f).suspended = true ∨
      (s.flow f).pendingBlock = none →
    exec .lifecycleGrant s = .next s.declined.finish) ∧
  ∀ (s : State) (f : FlowId) (epoch : Epoch),
    s.link.grant = some (.lifecycle f) → s.part.state = .partnered → s.part.ownEpoch = some epoch →
    (s.flow f).suspended = false →
    let fl := s.flow f
    let order := s.link.lifecycleOrder.filter (· ≠ f)
    (∀ window mode, fl.pendingBlock = some (.openFlow window mode) →
      let p := s.presenting .plain ⟨epoch, .openFlow f window mode⟩
      exec .lifecycleGrant s = .next (State.finish { p with
        flows := writeAt s.flows f { fl with
          pendingBlock := none, attempts := fl.attempts + 1, openTimer := .running 250 }
        link := { p.link with lifecycleOrder := order } })) ∧
    (fl.pendingBlock = some .close →
      let p := s.presenting .plain ⟨epoch, .close f⟩
      exec .lifecycleGrant s = .next (State.finish { p with
        flows := writeAt s.flows f { fl with
          pendingBlock := none, attempts := fl.attempts + 1, retxTimer := .running fl.rto }
        link := { p.link with lifecycleOrder := order } })) ∧
    (∀ verdict, fl.pendingBlock = some (.openAck verdict) → fl.state = .opening → fl.openTimer = .stopped →
      let p := s.presenting .plain ⟨epoch, .openAck f verdict⟩
      exec .lifecycleGrant s = .next (State.finish { p with
        flows := writeAt s.flows f { fl with
          pendingBlock := some (.openFlow (s.profile f).window (s.profile f).order) }
        link := { p.link with lifecycleOrder := order ++ [f] } })) ∧
    (fl.pendingBlock = some .closeAck → fl.state = .closing → fl.retxTimer = .stopped →
      let p := s.presenting .plain ⟨epoch, .closeAck f⟩
      exec .lifecycleGrant s = .next (State.finish { p with
        flows := writeAt s.flows f { fl with pendingBlock := some .close }
        link := { p.link with lifecycleOrder := order ++ [f] } })) ∧
    (∀ body, (∃ verdict, fl.pendingBlock = some (.openAck verdict) ∧ body = .openAck f verdict ∧
          (fl.state ≠ .opening ∨ fl.openTimer ≠ .stopped)) ∨
        (fl.pendingBlock = some .closeAck ∧ body = .closeAck f ∧
          (fl.state ≠ .closing ∨ fl.retxTimer ≠ .stopped)) ∨
        (fl.pendingBlock = some .abort ∧ body = .abort f) →
      let p := s.presenting .plain ⟨epoch, body⟩
      (fl.state ≠ .draining ∨ fl.sendQueue ≠ [] ∨ fl.window ≠ [] →
        exec .lifecycleGrant s = .next (State.finish { p with
          flows := writeAt s.flows f { fl with pendingBlock := none }
          link := { p.link with lifecycleOrder := order } })) ∧
      (fl.state = .draining → fl.sendQueue = [] → fl.window = [] → s.engine.executing = none →
        (fl.drainOrigin = some .localEnd →
          exec .lifecycleGrant s = .next (State.finish { p with
            flows := writeAt s.flows f { fl with
              state := .closing, drainOrigin := none, attempts := 0, retxTimer := .stopped
              pendingBlock := some .close }
            link := { p.link with lifecycleOrder := order ++ [f] }
            notices := s.notices.takeAll [.flowState f .draining .closing .drained] })) ∧
        (fl.drainOrigin = some .peerEnd → fl.collectedBuffers ≤ s.held f →
          ∃ t, exec .lifecycleGrant s = .next t.finish ∧ s.FlowEnded t f .closed ∧
            (t.flow f).pendingBlock = some .closeAck ∧ (t.flow f).failureCause = fl.failureCause ∧
            t.link = { p.link with lifecycleOrder := order ++ [f] } ∧
            s.Raises t ((fl.completion fun _ => (.done, none)) ++ [.flowState f .draining .closed .drained]) ∧
            p.Unchanged [.flows, .pool, .link, .notices] t)))

/-- R74, R82, R113, R133, R138, R139, R140, R152, R166: a partnership grant sends the pending LEAVE with its recorded
epoch in any state, else, outside SILENT, the pending HELLO with the own epoch, the unit identifier and the partner
epoch as seen epoch, else, while PARTNERED, the pending KEEPALIVE; its mark is cleared, and a HELLO clears the repeat
mark too. The end of the LEAVE that a RESTART awaits is marked as such. A bulk grant, while PARTNERED, sends the head
of the link reply queue in class 3, which stays queued until the end of its transmission, or else the head of the
link bulk queue, which leaves it; the bulk credit returns to 0. A grant that finds nothing to send is declined: it
changes nothing but the grant in transit, and the slot is selected for again as at the end of every happening
(FinishReleasesAndSelects). That a presented block consumes the slot's signal, and that nothing is sent for want of
an own epoch in a state that no run reaches, are the model's choices (log entries 12 and 11). -/
def Obligations.PartnershipAndBulkGrantsSend : Prop :=
  (∀ s : State, s.link.grant = some .partnership →
     (∀ epoch, s.part.leavePending = some epoch →
       let p := s.presentingInAny (if s.engine.state = .awaitLeave then .restartLeave else .plain)
         ⟨epoch, .leave⟩
       exec .partnershipGrant s = .next (State.finish { p with
         part := { p.part with leavePending := none } })) ∧
     (∀ own, s.part.leavePending = none → s.part.state ≠ .silent → s.part.helloPending = true →
       s.part.ownEpoch = some own →
       let p := s.presentingInAny .plain ⟨own, .hello s.unitId s.part.partnerEpoch⟩
       exec .partnershipGrant s = .next (State.finish { p with
         part := { p.part with helloPending := false, repeatMark := false } })) ∧
     (∀ own, s.part.leavePending = none → s.part.helloPending = false → s.part.state = .partnered →
       s.part.keepalivePending = true → s.part.ownEpoch = some own →
       let p := s.presentingInAny .plain ⟨own, .keepalive⟩
       exec .partnershipGrant s = .next (State.finish { p with
         part := { p.part with keepalivePending := false } })) ∧
     (s.part.leavePending = none →
       s.part.state = .silent ∨ s.part.helloPending = false ∨ s.part.ownEpoch = none →
       s.part.state ≠ .partnered ∨ s.part.keepalivePending = false ∨ s.part.ownEpoch = none →
       exec .partnershipGrant s = .next s.declined.finish)) ∧
  (∀ (s : State) (epoch : Epoch),
     s.link.grant = some .bulk → s.part.state = .partnered → s.part.ownEpoch = some epoch →
     (∀ item rest, s.engine.linkReply = item :: rest →
       let p := s.presenting .linkReply ⟨epoch, .bulk 3 item.frame⟩
       exec .bulkGrant s = .next (State.finish { p with link := { p.link with bulkCredit := 0 } })) ∧
     (∀ item rest, s.engine.linkReply = [] → s.link.bulkQueue = item :: rest →
       let p := s.presenting .bulkBuffer ⟨epoch, .bulk item.cls item.frame⟩
       exec .bulkGrant s = .next (State.finish { p with
         link := { p.link with bulkQueue := rest, bulkCredit := 0 } }))) ∧
  (∀ s : State, s.link.grant = some .bulk →
     s.part.state ≠ .partnered ∨ s.part.ownEpoch = none ∨
       (s.engine.linkReply = [] ∧ s.link.bulkQueue = []) →
     exec .bulkGrant s = .next s.declined.finish)

/-! ## Blocks received at a flow -/

/-- R29, R30, R31, R37, R40, R41, R88, R96, R145: an accepted DATA for E in OPEN, DRAINING or CLOSING with a buffer
to be had. E passes its sequence and the run of members behind it, which leave the reorder set; its frame and
those of the FRAME members join the tail of the flow's wire class queue in sequence order, each counted as rx
delivered; one buffer is charged to the flow; a run sets status pending. An IDLE wire transmitter with the wired
link up takes a frame at once: with an empty egress the first of them, and the rest stand in the class queue. -/
def Obligations.DataInOrderDelivered : Prop :=
  ∀ (s : State) (f : FlowId) (epoch : Epoch) (frame : Frame) (run rest : List Member),
    s.Receives ⟨epoch, .data f (s.flow f).expected frame⟩ →
    ((s.flow f).state = .opened ∨ (s.flow f).state = .draining ∨ (s.flow f).state = .closing) →
    s.HasBufferFor f → s.engine.executing = none → (s.flow f).reorder = run ++ rest →
    ContiguousRun ((s.flow f).expected + 1) run rest →
    let fl := s.flow f
    let p := s.profile f
    ∃ t, exec .dataReceived s = .next t.finish ∧
      t.flow f = Flow.counted { fl with
        expected := fl.expected + 1 + BitVec.ofNat 12 run.length, reorder := rest } p (run ≠ []) ∧
      (∀ k, k ≠ f → t.flow k = s.flow k) ∧ s.BufferTaken t f ∧
      t.flowCounters = writeAt s.flowCounters f { readAt s.flowCounters f with
        rxDelivered := (readAt s.flowCounters f).rxDelivered +
          BitVec.ofNat 32 (1 + (framesOf run).length) } ∧
      s.wire.Placed p.wireClass ((frame :: framesOf run).map (⟨.flow f, ·⟩)) t.wire ∧
      s.Raises t [] ∧ s.receiving.Unchanged [.flows, .pool, .wire, .flowCounters, .notices] t

/-- R32, R33, R37, R40, R41, R96, R145: an accepted DATA inside the window for a sequence after E that the reorder
set does not hold, with a buffer to be had. In IN_ORDER mode a FRAME member joins the set at its place and nothing is
delivered; in ARRIVAL mode the frame joins the tail of the flow's wire class queue, or is begun at once by an IDLE
transmitter with the wired link up and an empty egress, and a DELIVERED member joins the set. E stays and status
pending becomes yes. -/
def Obligations.EarlyDataHeld : Prop :=
  ∀ (s : State) (f : FlowId) (epoch : Epoch) (q : Seq) (frame : Frame) (before after : List Member),
    s.Receives ⟨epoch, .data f q frame⟩ →
    ((s.flow f).state = .opened ∨ (s.flow f).state = .draining ∨ (s.flow f).state = .closing) →
    1 ≤ seqDistance (s.flow f).expected q → seqDistance (s.flow f).expected q < (s.profile f).window →
    s.HasBufferFor f → s.engine.executing = none → (s.flow f).reorder = before ++ after →
    PlaceInOrder (s.flow f).expected q before after →
    let fl := s.flow f
    let p := s.profile f
    (p.order = .inOrder →
      ∃ t, exec .dataReceived s = .next t.finish ∧
        t.flow f = Flow.counted { fl with reorder := before ++ ⟨q, .frame frame⟩ :: after } p true ∧
        (∀ k, k ≠ f → t.flow k = s.flow k) ∧ s.BufferTaken t f ∧
        s.Raises t [] ∧ s.receiving.Unchanged [.flows, .pool, .notices] t) ∧
    (p.order = .arrival →
      ∃ t, exec .dataReceived s = .next t.finish ∧
        t.flow f = Flow.counted { fl with reorder := before ++ ⟨q, .delivered⟩ :: after } p true ∧
        (∀ k, k ≠ f → t.flow k = s.flow k) ∧ s.BufferTaken t f ∧
        t.flowCounters = writeAt s.flowCounters f { readAt s.flowCounters f with
          rxDelivered := (readAt s.flowCounters f).rxDelivered + 1 } ∧
        s.wire.Placed p.wireClass [⟨.flow f, frame⟩] t.wire ∧
        s.Raises t [] ∧ s.receiving.Unchanged [.flows, .pool, .wire, .flowCounters, .notices] t)

/-- R29, R31, R32, R33, R34, R35, R36, R96: a DATA that is not stored changes no buffer, no E, no
reorder set, no data since status and no ack delay timer. A duplicate or old one raises rx duplicate and sets
status pending; one out of window raises rx out of window; one for which the pool has no buffer raises rx
refused. -/
def Obligations.UnstoredDataCounted : Prop :=
  ∀ (s : State) (f : FlowId) (epoch : Epoch) (q : Seq) (frame : Frame),
    s.Receives ⟨epoch, .data f q frame⟩ →
    ((s.flow f).state = .opened ∨ (s.flow f).state = .draining ∨ (s.flow f).state = .closing) →
    1 ≤ (s.profile f).window → (s.profile f).window ≤ 64 →
    let fl := s.flow f
    let d := seqDistance fl.expected q
    let w := (s.profile f).window
    let c := readAt s.flowCounters f
    ((1 ≤ d ∧ d < w ∧ (∃ m ∈ fl.reorder, m.seq = q)) ∨ seqBefore q fl.expected = true →
      exec .dataReceived s = .next (State.finish { s.receiving with
        flows := writeAt s.flows f { fl with statusPending := true }
        flowCounters := writeAt s.flowCounters f { c with rxDuplicate := c.rxDuplicate + 1 } })) ∧
    (w ≤ d → d ≤ 2048 →
      exec .dataReceived s = .next (State.finish { s.receiving with
        flowCounters := writeAt s.flowCounters f { c with rxOutOfWindow := c.rxOutOfWindow + 1 } })) ∧
    (d < w → (∀ m ∈ fl.reorder, m.seq ≠ q) → ¬ s.HasBufferFor f →
      exec .dataReceived s = .next (State.finish { s.receiving with
        flowCounters := writeAt s.flowCounters f { c with rxRefused := c.rxRefused + 1 } }))

/-- R30, R37, R38, R145: an accepted ADVANCE in OPEN, DRAINING or CLOSING sets status pending and takes no buffer.
For E it passes over E and the run of members behind it, whose FRAME members are delivered to the wire class queue,
where an IDLE transmitter with the wired link up takes a frame at once; with no FRAME member the wire egress is left
alone. For a sequence
after E inside the window that the set does not hold it leaves a SKIP member there; otherwise the set and E
stay, and out of the window rx out of window rises. -/
def Obligations.AdvancePasses : Prop :=
  ∀ (s : State) (f : FlowId) (epoch : Epoch) (q : Seq) (before after : List Member),
    s.Receives ⟨epoch, .advance f q⟩ →
    ((s.flow f).state = .opened ∨ (s.flow f).state = .draining ∨ (s.flow f).state = .closing) →
    1 ≤ (s.profile f).window → (s.profile f).window ≤ 64 → (s.flow f).reorder = before ++ after →
    let fl := s.flow f
    let p := s.profile f
    let d := seqDistance fl.expected q
    let c := readAt s.flowCounters f
    (q = fl.expected → ContiguousRun (fl.expected + 1) before after →
      ∃ t, exec .advanceReceived s = .next t.finish ∧
        t.flow f = { fl with
          expected := fl.expected + 1 + BitVec.ofNat 12 before.length
          reorder := after
          statusPending := true } ∧
        (∀ k, k ≠ f → t.flow k = s.flow k) ∧
        t.flowCounters = writeAt s.flowCounters f { c with
          rxDelivered := c.rxDelivered + BitVec.ofNat 32 (framesOf before).length } ∧
        s.wire.Placed p.wireClass ((framesOf before).map (⟨.flow f, ·⟩)) t.wire ∧
        s.receiving.Unchanged [.flows, .wire, .flowCounters] t) ∧
    (1 ≤ d → d < p.window → PlaceInOrder fl.expected q before after →
      exec .advanceReceived s = .next (State.finish { s.receiving with
        flows := writeAt s.flows f { fl with
          reorder := before ++ ⟨q, .skip⟩ :: after, statusPending := true } })) ∧
    ((1 ≤ d ∧ d < p.window ∧ (∃ m ∈ fl.reorder, m.seq = q)) ∨ seqBefore q fl.expected = true →
      exec .advanceReceived s = .next (State.finish { s.receiving with
        flows := writeAt s.flows f { fl with statusPending := true } })) ∧
    (p.window ≤ d → d ≤ 2048 →
      exec .advanceReceived s = .next (State.finish { s.receiving with
        flows := writeAt s.flows f { fl with statusPending := true }
        flowCounters := writeAt s.flowCounters f { c with rxOutOfWindow := c.rxOutOfWindow + 1 } }))

/-- R61, R63, R65, R81, R88: DATA, ADVANCE and STATUS at a flow that is not in OPEN, DRAINING or CLOSING: DATA and
ADVANCE at a CLOSED flow make an ABORT pending, at the tail of the lifecycle order; at an OPENING flow every one of
the three is counted as stale; otherwise the block is ignored. A CLOSE_ACK at a flow outside CLOSING and an ABORT at
a CLOSED or FAILED flow are ignored: they only restart the silence timer, as every accepted block does. A KEEPALIVE
that bears the partner epoch in PARTNERED only restarts the silence timer. A block that does not bear it, or that
arrives in another state, is discarded at its destination and counted as stale, whatever its kind. -/
def Obligations.BlocksNotTaken : Prop :=
  (∀ (s : State) (f : FlowId) (c : Instr) (b : LinkBlock), s.Receives b →
     ((∃ q frame, b.body = .data f q frame ∧ c = .dataReceived) ∨
       (∃ q, b.body = .advance f q ∧ c = .advanceReceived) ∨
       (∃ a map high, b.body = .status f a map high ∧ c = .statusReceived)) →
     ((s.flow f).state = .closed → c ≠ .statusReceived →
       exec c s = .next (State.finish { s.receiving with
         flows := writeAt s.flows f { s.flow f with pendingBlock := some .abort }
         link := { s.receiving.link with
           lifecycleOrder := s.link.lifecycleOrder.filter (· ≠ f) ++ [f] } })) ∧
     ((s.flow f).state = .opening →
       exec c s = .next (State.finish { s.receiving with
         deviceCounters := { s.deviceCounters with linkRxStale := s.deviceCounters.linkRxStale + 1 } })) ∧
     ((s.flow f).state = .failed ∨ ((s.flow f).state = .closed ∧ c = .statusReceived) →
       exec c s = .next s.receiving.finish)) ∧
  (∀ (s : State) (f : FlowId) (epoch : Epoch),
     (s.Receives ⟨epoch, .closeAck f⟩ → (s.flow f).state ≠ .closing →
       exec .closeAckReceived s = .next s.receiving.finish) ∧
     (s.Receives ⟨epoch, .abort f⟩ → (s.flow f).state = .closed ∨ (s.flow f).state = .failed →
       exec .abortReceived s = .next s.receiving.finish)) ∧
  (∀ (s : State) (epoch : Epoch) (body : BlockBody) (rest : List LinkBlock),
     let stale := { s.deviceCounters with linkRxStale := s.deviceCounters.linkRxStale + 1 }
     (s.link.toPartnership = ⟨epoch, .keepalive⟩ :: rest → s.part.state = .partnered →
       s.part.partnerEpoch = some epoch →
       exec .keepaliveReceived s = .next (State.finish { s with
         link := { s.link with toPartnership := rest }
         part := { s.part with silenceTimer := .running s.params.silenceLimit } })) ∧
     (s.part.state ≠ .partnered ∨ s.part.partnerEpoch ≠ some epoch →
       (s.link.toPartnership = ⟨epoch, .keepalive⟩ :: rest →
         exec .keepaliveReceived s = .next (State.finish { s with
           link := { s.link with toPartnership := rest }, deviceCounters := stale })) ∧
       (∀ c, s.link.toFlows = ⟨epoch, body⟩ :: rest → arrivalOf body = some c →
         exec c s = .next (State.finish { s with
           link := { s.link with toFlows := rest }, deviceCounters := stale })) ∧
       (∀ cls frame, s.link.toBulk = ⟨epoch, .bulk cls frame⟩ :: rest →
         exec .bulkReceived s = .next (State.finish { s with
           link := { s.link with toBulk := rest }, deviceCounters := stale }))))

/-- R11, R12, R13, R14, R15, R16, R58, Table 1.3: a STATUS at an OPEN, DRAINING or CLOSING flow. When the distance
from L to A exceeds the distance from L to N it only raises status stale. Otherwise, in OPEN and DRAINING, the
entries before A leave the window and the list, their buffers return to free, L becomes A, and each entry left takes
the condition of Table 1.3. If L moved the current RTO returns to the base and a timer with an entry in flight
restarts; with none in flight the timer stops. A drain that is complete then ends: origin LOCAL makes the flow
CLOSING, owing a CLOSE, and origin PEER makes it CLOSED, owing a CLOSE_ACK. In CLOSING, where the window is empty, a
STATUS for L changes nothing at the flow. The order of the causes, and that at a drain of origin PEER the release of
R12 and the entry to CLOSED are two changes of shared free, each with its own low-pool test (R98 and R100 leave open
whether their one happening has one or two), are the model's readings (log entry 13). That a drain
without origin ends nothing, and that a request still held at a drain of origin PEER is completed DONE, are its
choices (log entry 23). -/
def Obligations.StatusReceivedAtOpen : Prop :=
  ∀ (s : State) (f : FlowId) (epoch : Epoch) (a : Seq) (map : BitVec 64) (high : Option Seq),
    s.Receives ⟨epoch, .status f a map high⟩ → s.engine.executing = none →
    ((s.flow f).state = .opened ∨ (s.flow f).state = .draining ∨ (s.flow f).state = .closing) →
    let fl := s.flow f
    let c := readAt s.flowCounters f
    let base := (s.profile f).rtoBase
    let kept := fl.window.filter fun e => !seqBefore e.seq a
    let order := fl.txOrder.filter fun q => !seqBefore q a
    let released := (fl.window.filter fun e => seqBefore e.seq a).countP (·.holdsBuffer)
    let set := fun q => (List.range 64).any fun k => 1 ≤ k ∧ q = a + BitVec.ofNat 12 k ∧ map.getLsbD k
    let lost := fun q => high.any fun h =>
      kept.any (·.seq = h) && seqBefore q h && (order.takeWhile (· ≠ h)).contains q
    let after := fun e : WindowEntry => match e.condition with
      | .outstanding frame =>
        if set e.seq then EntryCondition.sacked frame
        else if lost e.seq then .pendingRetx frame else .outstanding frame
      | .pendingRetx frame => if set e.seq then .sacked frame else .pendingRetx frame
      | .sacked frame => .sacked frame
      | .skipped .sent => if lost e.seq then .skipped .due else .skipped .sent
      | .skipped .due => .skipped .due
    let window := kept.map fun e => { e with condition := after e }
    let waits := fl.suspended = true ∨ fl.sendQueue ≠ [] ∨ window ≠ [] ∨ fl.pendingBlock ≠ none
    let rto := if a = fl.lower then fl.rto else base
    let held := s.held f - released
    let acked : State := { s with
      flows := writeAt s.flows f { fl with
        lower := a, window := window, txOrder := order, rto := rto, retxTimer := .stopped }
      pool := { s.pool with free := s.pool.free + released, held := writeAt s.pool.held f held } }
    (seqDistance fl.lower fl.next < seqDistance fl.lower a →
      exec .statusReceived s = .next (State.finish { s.receiving with
        flowCounters := writeAt s.flowCounters f { c with statusStale := c.statusStale + 1 } })) ∧
    (seqDistance fl.lower a ≤ seqDistance fl.lower fl.next → released ≤ s.held f →
      fl.state = .opened ∨ (fl.state = .draining ∧ (waits ∨ fl.drainOrigin = none)) →
      ∃ t, exec .statusReceived s = .next t.finish ∧
        t.flow f = { fl with
          lower := a
          window := window
          txOrder := order
          rto := rto
          retxTimer :=
            if window.any (·.inFlight) then
              if a = fl.lower then fl.retxTimer else .running base
            else .stopped } ∧
        (∀ k, k ≠ f → t.flow k = s.flow k) ∧
        t.held f = held ∧ (∀ k, k ≠ f → t.held k = s.held k) ∧
        t.pool.free = s.pool.free + released ∧ t.pool.reservation = s.pool.reservation ∧
        t.pool.bulkHeld = s.pool.bulkHeld ∧ s.Raises t [] ∧
        s.receiving.Unchanged [.flows, .pool, .notices] t) ∧
    (seqDistance fl.lower a ≤ seqDistance fl.lower fl.next → fl.state = .draining → ¬ waits →
      (fl.drainOrigin = some .localEnd → released ≤ s.held f →
        ∃ t, exec .statusReceived s = .next t.finish ∧
          t.flow f = { fl with
            lower := a, window := [], txOrder := order, rto := rto, retxTimer := .stopped
            state := .closing, drainOrigin := none, attempts := 0, pendingBlock := some .close } ∧
          (∀ k, k ≠ f → t.flow k = s.flow k) ∧
          t.held f = held ∧ (∀ k, k ≠ f → t.held k = s.held k) ∧
          t.pool.free = s.pool.free + released ∧ t.pool.reservation = s.pool.reservation ∧
          t.pool.bulkHeld = s.pool.bulkHeld ∧ t.link = s.receiving.link.queued f ∧
          s.Raises t [.flowState f .draining .closing .drained] ∧
          s.receiving.Unchanged [.flows, .pool, .link, .notices] t) ∧
      (fl.drainOrigin = some .peerEnd → released + fl.reorder.countP (·.holdsBuffer) ≤ s.held f →
        ∃ t armed n, exec .statusReceived s = .next t.finish ∧ acked.FlowEnded t f .closed ∧
          (t.flow f).pendingBlock = some .closeAck ∧ (t.flow f).failureCause = fl.failureCause ∧
          t.link = s.receiving.link.queued f ∧
          s.LowPoolTested { acked.pool with lowArmed := armed } n ∧
          State.Raises { acked with pool := { acked.pool with lowArmed := armed }, notices := n } t
            ((fl.completion fun _ => (.done, none)) ++ [.flowState f .draining .closed .drained]) ∧
          s.receiving.Unchanged [.flows, .pool, .link, .notices] t)) ∧
    (fl.state = .closing → fl.window = [] → fl.txOrder = [] → a = fl.lower →
      exec .statusReceived s = .next s.receiving.finish)

/-- R17, R18, R59: the retransmission timer of an unsuspended OPEN or DRAINING flow runs out. The entry in
flight that stands first in the transmission-order list is marked lost, the current RTO becomes twice its
value or the cap, whichever is smaller, and the timer restarts with it while an entry is still in flight. -/
def Obligations.RetransmissionTimerExpires : Prop :=
  ∀ (s : State) (f : FlowId) (older newer : List Seq) (q : Seq) (e : WindowEntry),
    ((s.flow f).state = .opened ∨ (s.flow f).state = .draining) → (s.flow f).suspended = false →
    (s.flow f).retxTimer = .running 0 → (s.flow f).txOrder = older ++ q :: newer →
    (∀ x ∈ (s.flow f).window, x.seq ∈ older → x.inFlight = false) →
    e ∈ (s.flow f).window → e.seq = q → e.inFlight = true →
    (∀ x ∈ (s.flow f).window, x.seq = q → x = e) →
    let fl := s.flow f
    let p := s.profile f
    let rto := min (2 * fl.rto) (p.rtoBase * 2 ^ p.backoffLimit)
    let lost : WindowEntry := { e with condition := match e.condition with
      | .outstanding frame => .pendingRetx frame
      | .skipped _ => .skipped .due
      | .sacked frame => .sacked frame
      | .pendingRetx frame => .pendingRetx frame }
    exec (.retransmissionTimerExpiry f) s = .next (State.finish { s with
      flows := writeAt s.flows f { fl with
        window := fl.window.map fun x => if x.seq = q then lost else x
        rto := rto
        retxTimer := if fl.window.any (fun x => x.seq ≠ q && x.inFlight) then .running rto
          else .stopped } })

/-! ## The flow lifecycle -/

/-- R1, R26, R54, R55, R56, R94, R135: how a flow becomes OPEN by its partner's block. An OPEN at a CLOSED flow
whose profile is RELIABLE, matches, and has its reserve in shared free makes the reservation, reinitialises the
context and owes OPEN_ACK(accept); one that fails a check owes the refusal and changes nothing else. A matching
OPEN, or an OPEN_ACK(accept), at an OPENING flow opens it, stops the open timer and completes its FLOW_OPEN; an OPEN
that differs there only owes the refusal. An OPEN at an OPEN flow owes OPEN_ACK(accept), at a FAILED flow an ABORT,
and in DRAINING and CLOSING is stale. An OPEN_ACK(accept) at a CLOSED flow owes an ABORT, at an OPEN flow is ignored,
and elsewhere is stale, as a refusal is outside OPENING. The order of the causes of one happening is the model's
reading (log entry 13). -/
def Obligations.FlowsOpen : Prop :=
  ∀ (s : State) (f : FlowId) (epoch : Epoch), s.engine.executing = none →
    let fl := s.flow f
    let p := s.profile f
    let owing := fun b => State.finish { s.receiving with
      flows := writeAt s.flows f { fl with pendingBlock := some b }, link := s.receiving.link.queued f }
    let stale := State.finish { s.receiving with
      deviceCounters := { s.deviceCounters with linkRxStale := s.deviceCounters.linkRxStale + 1 } }
    (∀ window order, s.Receives ⟨epoch, .openFlow f window order⟩ → fl.state = .closed →
      (p.mode = .reliable → window = p.window → order = p.order → p.reserve ≤ s.pool.sharedFree →
        ∃ t, exec .openReceived s = .next t.finish ∧
          t.flow f = { fl with
            state := .opened, sendQueue := [], lower := 0, next := 0, window := [], txOrder := []
            rto := p.rtoBase, retxTimer := .stopped, expected := 0, reorder := [], dataSince := 0
            ackTimer := .stopped, statusPending := false, pendingBlock := some (.openAck .accept) } ∧
          (∀ k, k ≠ f → t.flow k = s.flow k) ∧
          t.pool = { s.pool with
            reservation := writeAt s.pool.reservation f p.reserve, lowArmed := t.pool.lowArmed } ∧
          t.link = s.receiving.link.queued f ∧ s.Raises t [.flowState f .closed .opened .peerOpen] ∧
          s.receiving.Unchanged [.flows, .pool, .link, .notices] t) ∧
      (∀ verdict, verdict = (if p.mode = .disabled then Verdict.notReliable
          else if window ≠ p.window ∨ order ≠ p.order then .profileMismatch else .noBuffers) →
        p.mode = .disabled ∨ window ≠ p.window ∨ order ≠ p.order ∨ s.pool.sharedFree < p.reserve →
        exec .openReceived s = .next (State.finish { s.receiving with
          flows := writeAt s.flows f { fl with pendingBlock := some (.openAck verdict) }
          link := s.receiving.link.queued f }))) ∧
    (s.Receives ⟨epoch, .openFlow f p.window p.order⟩ → fl.state = .opening →
      exec .openReceived s = .next (State.finish { s.receiving with
        flows := writeAt s.flows f { fl with
          state := .opened, openTimer := .stopped, pendingBlock := some (.openAck .accept)
          deferred := none }
        link := s.receiving.link.queued f
        notices := s.notices.takeAll (.flowState f .opening .opened .peerOpen ::
          fl.completion fun _ => (.done, none)) })) ∧
    (s.Receives ⟨epoch, .openAck f .accept⟩ → fl.state = .opening →
      ((∀ window order, fl.pendingBlock ≠ some (.openFlow window order)) →
        exec .openAckReceived s = .next (State.finish { s.receiving with
          flows := writeAt s.flows f { fl with state := .opened, openTimer := .stopped, deferred := none }
          notices := s.notices.takeAll (.flowState f .opening .opened .openAccepted ::
            fl.completion fun _ => (.done, none)) })) ∧
      (∀ window order, fl.pendingBlock = some (.openFlow window order) →
        exec .openAckReceived s = .next (State.finish { s.receiving with
          flows := writeAt s.flows f { fl with
            state := .opened, openTimer := .stopped, pendingBlock := none, deferred := none }
          link := s.receiving.link.unqueued f
          notices := s.notices.takeAll (.flowState f .opening .opened .openAccepted ::
            fl.completion fun _ => (.done, none)) }))) ∧
    (∀ window order, s.Receives ⟨epoch, .openFlow f window order⟩ →
      (fl.state = .opening → window ≠ p.window ∨ order ≠ p.order →
        exec .openReceived s = .next (owing (.openAck .profileMismatch))) ∧
      (fl.state = .opened → exec .openReceived s = .next (owing (.openAck .accept))) ∧
      (fl.state = .draining ∨ fl.state = .closing → exec .openReceived s = .next stale) ∧
      (fl.state = .failed → exec .openReceived s = .next (owing .abort))) ∧
    (∀ verdict, s.Receives ⟨epoch, .openAck f verdict⟩ →
      (verdict = .accept →
        (fl.state = .closed → exec .openAckReceived s = .next (owing .abort)) ∧
        (fl.state = .opened → exec .openAckReceived s = .next s.receiving.finish) ∧
        (fl.state = .draining ∨ fl.state = .closing ∨ fl.state = .failed →
          exec .openAckReceived s = .next stale)) ∧
      (verdict ≠ .accept → fl.state ≠ .opening → exec .openAckReceived s = .next stale))

/-- R51, R53, R56, R59, R61, R63: the events that end one flow. The fourth expiry of the open timer, an OPEN_ACK
refusal, the end of the CLOSE series and a CLOSE_ACK enter CLOSED, an ABORT received enters FAILED; each
completes the deferred request with the outcome its rule names. A CLOSE_ACK that a CLOSING flow owes stays
pending; any other pending block is cleared and leaves the lifecycle order. The order of the causes is the
model's reading (log entry 13). -/
def Obligations.FlowEndings : Prop :=
  ∀ (s : State) (f : FlowId) (epoch : Epoch), s.engine.executing = none →
    (s.flow f).collectedBuffers ≤ s.held f →
    let fl := s.flow f
    let owes : Prop := fl.pendingBlock = some .closeAck
    (fl.state = .opening → fl.openTimer = .running 0 → 4 ≤ fl.attempts →
      ∃ t, exec (.openTimerExpiry f) s = .next t.finish ∧ s.FlowEnded t f .closed ∧
        (t.flow f).pendingBlock = none ∧ (t.flow f).failureCause = fl.failureCause ∧
        t.link = s.link.unqueued f ∧
        s.Raises t (fl.completion (fun _ => (.timeout, none)) ++
          [.flowState f .opening .closed .openTimeout]) ∧
        s.Unchanged [.flows, .pool, .link, .notices] t) ∧
    (fl.state = .closing → fl.suspended = false → fl.retxTimer = .running 0 →
      1 + (s.profile f).retryLimit ≤ fl.attempts →
      ∃ t, exec (.closeSeriesExpiry f) s = .next t.finish ∧ s.FlowEnded t f .closed ∧
        (owes → (t.flow f).pendingBlock = some .closeAck ∧ t.link = s.link) ∧
        (¬ owes → (t.flow f).pendingBlock = none ∧ t.link = s.link.unqueued f) ∧
        (t.flow f).failureCause = fl.failureCause ∧
        s.Raises t (fl.completion (fun _ => (.unconfirmed, none)) ++
          [.flowState f .closing .closed .closeUnconfirmed]) ∧
        s.Unchanged [.flows, .pool, .link, .notices] t) ∧
    (s.Receives ⟨epoch, .closeAck f⟩ → fl.state = .closing →
      ∃ t, exec .closeAckReceived s = .next t.finish ∧ s.FlowEnded t f .closed ∧
        (owes → (t.flow f).pendingBlock = some .closeAck ∧ t.link = s.receiving.link) ∧
        (¬ owes → (t.flow f).pendingBlock = none ∧ t.link = s.receiving.link.unqueued f) ∧
        (t.flow f).failureCause = fl.failureCause ∧
        s.Raises t (fl.completion (fun _ => (.done, none)) ++
          [.flowState f .closing .closed .closeDone]) ∧
        s.receiving.Unchanged [.flows, .pool, .link, .notices] t) ∧
    (∀ verdict, verdict ≠ .accept → s.Receives ⟨epoch, .openAck f verdict⟩ → fl.state = .opening →
      ∃ t, exec .openAckReceived s = .next t.finish ∧ s.FlowEnded t f .closed ∧
        (t.flow f).pendingBlock = none ∧ t.link = s.receiving.link.unqueued f ∧
        (t.flow f).failureCause = fl.failureCause ∧
        s.Raises t (fl.completion (fun _ => (.refused, match verdict with
            | .accept => none
            | .notReliable => some .notReliable
            | .profileMismatch => some .profileMismatch
            | .noBuffers => some .noBuffers)) ++ [.flowState f .opening .closed .openRefused]) ∧
        s.receiving.Unchanged [.flows, .pool, .link, .notices] t) ∧
    (s.Receives ⟨epoch, .abort f⟩ → fl.inUse = true →
      ∃ t, exec .abortReceived s = .next t.finish ∧ s.FlowEnded t f .failed ∧
        (t.flow f).pendingBlock = none ∧ t.link = s.receiving.link.unqueued f ∧
        (t.flow f).failureCause = some .peerAbort ∧
        s.Raises t (fl.completion (fun code => match code with
            | .flowOpen => (.refused, some .peerAbort)
            | .flowClose => (.aborted, some .peerAbort)) ++ [.flowState f fl.state .failed .peerAbort]) ∧
        s.receiving.Unchanged [.flows, .pool, .link, .notices] t)

/-- R58, R60, R135: a CLOSE received. At an OPEN flow the flow becomes DRAINING with origin PEER, or, with
nothing left to send, CLOSED, owing a CLOSE_ACK; at a flow DRAINING by its own FLOW_CLOSE the origin becomes
PEER and that request completes; a CLOSING or CLOSED flow owes a CLOSE_ACK; elsewhere it is ignored. The order
of the causes is the model's reading (log entry 13). -/
def Obligations.CloseReceived : Prop :=
  ∀ (s : State) (f : FlowId) (epoch : Epoch), s.engine.executing = none →
    s.Receives ⟨epoch, .close f⟩ →
    let fl := s.flow f
    (fl.state = .opened → fl.busyDraining →
      exec .closeReceived s = .next (State.finish { s.receiving with
        flows := writeAt s.flows f { fl with state := .draining, drainOrigin := some .peerEnd }
        notices := s.notices.takeAll [.flowState f .opened .draining .peerClose] })) ∧
    (fl.state = .opened → ¬ fl.busyDraining → fl.collectedBuffers ≤ s.held f → fl.deferred = none →
      ∃ t, exec .closeReceived s = .next t.finish ∧ s.FlowEnded t f .closed ∧
        (t.flow f).pendingBlock = some .closeAck ∧ (t.flow f).failureCause = fl.failureCause ∧
        t.link = s.receiving.link.queued f ∧
        State.Raises { s with notices := s.notices.takeAll [.flowState f .opened .draining .peerClose] } t
          [.flowState f .draining .closed .drained] ∧
        s.receiving.Unchanged [.flows, .pool, .link, .notices] t) ∧
    (fl.state = .draining → fl.drainOrigin = some .localEnd → fl.busyDraining →
      exec .closeReceived s = .next (State.finish { s.receiving with
        flows := writeAt s.flows f { fl with drainOrigin := some .peerEnd, deferred := none }
        notices := s.notices.takeAll (fl.completion fun _ => (.done, none)) })) ∧
    (fl.state = .closing ∨ fl.state = .closed →
      exec .closeReceived s = .next (State.finish { s.receiving with
        flows := writeAt s.flows f { fl with pendingBlock := some .closeAck }
        link := s.receiving.link.queued f })) ∧
    (fl.state = .opening ∨ fl.state = .failed ∨
        (fl.state = .draining ∧ fl.drainOrigin = some .peerEnd) →
      exec .closeReceived s = .next s.receiving.finish)

/-- R19, R24, R41, R53, R59, R75, R82, R90, R153, R168: the timers whose running out marks a block as owed. The ack
delay timer sets status pending and stays stopped; the open timer below four attempts makes OPEN pending again with
the window and order of the active profile; the retransmission timer of a CLOSING flow below its limit doubles the
current RTO and makes CLOSE pending again; the hello timer sets HELLO pending and starts again with 200 ms; the
keepalive timer sets KEEPALIVE pending and stays stopped. An expiry at any timer of the part that has time left, or
at a frozen timer of a suspended flow, changes nothing: R24, R90 and R168 say so of some timers that a happening
restarts first, R19 and R41 of the frozen ones, and that it holds of every timer is the model's choice (log entries 6
and 9). -/
def Obligations.TimersThatOweABlock : Prop :=
  (∀ (s : State) (f : FlowId),
    let fl := s.flow f
    let p := s.profile f
    (fl.suspended = false → fl.ackTimer = .running 0 →
      exec (.ackDelayTimerExpiry f) s = .next (State.finish { s with
        flows := writeAt s.flows f { fl with statusPending := true, ackTimer := .stopped } })) ∧
    (fl.state = .opening → fl.openTimer = .running 0 → fl.attempts < 4 →
      exec (.openTimerExpiry f) s = .next (State.finish { s with
        flows := writeAt s.flows f { fl with
          openTimer := .stopped, pendingBlock := some (.openFlow p.window p.order) }
        link := s.link.queued f })) ∧
    (fl.state = .closing → fl.suspended = false → fl.retxTimer = .running 0 →
      fl.attempts < 1 + p.retryLimit →
      exec (.closeSeriesExpiry f) s = .next (State.finish { s with
        flows := writeAt s.flows f { fl with
          rto := min (2 * fl.rto) (p.rtoBase * 2 ^ p.backoffLimit)
          retxTimer := .stopped, pendingBlock := some .close }
        link := s.link.queued f })) ∧
    (s.part.helloTimer = .running 0 →
      exec .helloTimerExpiry s = .next (State.finish { s with
        part := { s.part with helloPending := true, helloTimer := .running 200 } })) ∧
    (s.part.state = .partnered → s.part.keepaliveTimer = .running 0 →
      exec .keepaliveTimerExpiry s = .next (State.finish { s with
        part := { s.part with keepalivePending := true, keepaliveTimer := .stopped } }))) ∧
  (∀ (s : State) (f : FlowId) (left : Nat),
    let fl := s.flow f
    let p := s.part
    (fl.retxTimer = .running (left + 1) ∨ fl.suspended = true →
      exec (.retransmissionTimerExpiry f) s = .next s ∧ exec (.closeSeriesExpiry f) s = .next s) ∧
    (fl.ackTimer = .running (left + 1) ∨ fl.suspended = true →
      exec (.ackDelayTimerExpiry f) s = .next s) ∧
    (fl.openTimer = .running (left + 1) → exec (.openTimerExpiry f) s = .next s) ∧
    (p.joinTimer = .running (left + 1) → exec .joinTimerExpiry s = .next s) ∧
    (p.helloTimer = .running (left + 1) → exec .helloTimerExpiry s = .next s) ∧
    (p.silenceTimer = .running (left + 1) → exec .silenceTimerExpiry s = .next s) ∧
    (p.keepaliveTimer = .running (left + 1) → exec .keepaliveTimerExpiry s = .next s) ∧
    (p.holdTimer = .running (left + 1) → exec .holdTimerExpiry s = .next s) ∧
    (∀ manager origin lease, s.engine.binding = .bound manager origin lease (left + 1) →
      exec .leaseTimerExpiry s = .next s))

/-! ## The partnership -/

/-- R76, R77, R78, R79, R81, R89: a HELLO in SILENT is stale, one with a foreign unit identifier is counted so. In
JOINING it records its sender, and one that confirms this bridge's epoch makes the partnership PARTNERED with
cause HANDSHAKE and completes the join. In PARTNERED one with the partner epoch restarts the silence timer; the
first confirming one sets the repeat mark, any other makes a HELLO pending; in LOST one with the partner epoch that
does not confirm makes a HELLO pending and does nothing else. The order of the causes is the
model's reading (log entry 13). -/
def Obligations.HelloReceived : Prop :=
  ∀ (s : State) (epoch : Epoch) (unit : Address) (seen : Option Epoch) (rest : List LinkBlock),
    s.engine.executing = none → s.link.toPartnership = ⟨epoch, .hello unit seen⟩ :: rest →
    let p := s.part
    let u : State := { s with link := { s.link with toPartnership := rest } }
    let c := s.deviceCounters
    (p.state = .silent → exec .helloReceived s = .next (State.finish { u with
      deviceCounters := { c with linkRxStale := c.linkRxStale + 1 } })) ∧
    ((p.state ≠ .silent ∧ unit = s.unitId) ∨
        (p.state = .joining ∧ s.params.expectedPartner ≠ none ∧
          s.params.expectedPartner ≠ some unit) ∨
        ((p.state = .partnered ∨ p.state = .lost) ∧ p.partnerUnit ≠ some unit) →
      exec .helloReceived s = .next (State.finish { u with
        deviceCounters := { c with linkRxForeign := c.linkRxForeign + 1 } })) ∧
    (p.state = .joining → unit ≠ s.unitId →
      s.params.expectedPartner = none ∨ s.params.expectedPartner = some unit →
      (¬ p.confirmedBy seen → exec .helloReceived s = .next (State.finish { u with
        part := { p with
          partnerUnit := some unit, partnerEpoch := some epoch, helloPending := true } })) ∧
      (p.confirmedBy seen → exec .helloReceived s = .next (State.finish { u with
        part := { p with
          state := .partnered, partnerUnit := some unit, partnerEpoch := some epoch
          helloPending := true, joinTimer := .stopped, helloTimer := .stopped
          silenceTimer := .running s.params.silenceLimit
          keepaliveTimer := .running s.params.keepaliveInterval
          repeatMark := false, deferredJoin := none }
        notices := s.notices.takeAll (.linkState .joining .partnered .handshake ::
          match p.deferredJoin with
          | none => []
          | some tag => [.completion tag 0x30 .done none]) }))) ∧
    (p.state = .partnered → unit ≠ s.unitId → p.partnerUnit = some unit →
      p.partnerEpoch = some epoch →
      exec .helloReceived s = .next (State.finish { u with
        part := { p with
          silenceTimer := .running s.params.silenceLimit
          repeatMark := p.repeatMark || seen == p.ownEpoch && seen.isSome
          helloPending := p.helloPending || p.repeatMark || !(seen == p.ownEpoch && seen.isSome) } })) ∧
    (p.state = .lost → unit ≠ s.unitId → p.partnerUnit = some unit → p.partnerEpoch = some epoch →
      ¬ p.confirmedBy seen →
      exec .helloReceived s = .next (State.finish { u with part := { p with helloPending := true } }))

/-- R51, R58, R67, R79, R89, R135: a confirming HELLO with the partner epoch in LOST regains the partnership.
Every suspended flow resumes: its entries in flight become due, its current RTO returns to the base, its
retransmission timer stops and status pending becomes yes; a CLOSING flow with no block pending owes its CLOSE
again, and a DRAINING flow with nothing left to send becomes CLOSING for origin LOCAL and CLOSED, owing a
CLOSE_ACK, for origin PEER. Flows that are not suspended are not changed, the flows that owe a new block join
the tail of the lifecycle order in increasing number, and no account but that of a flow that ends changes. The
order of the causes is the model's reading (log entry 13); that a drain without origin ends nothing, and that a
request still held at a drain of origin PEER is completed DONE, are its choices (log entry 23). How many
POOL_LOW causes stand among the others is not said. -/
def Obligations.PartnershipRegained : Prop :=
  ∀ (s : State) (epoch : Epoch) (unit : Address) (seen : Option Epoch) (rest : List LinkBlock),
    s.engine.executing = none → s.link.toPartnership = ⟨epoch, .hello unit seen⟩ :: rest →
    s.part.state = .lost → unit ≠ s.unitId → s.part.partnerUnit = some unit →
    s.part.partnerEpoch = some epoch → s.part.confirmedBy seen →
    ∃ t, exec .helloReceived s = .next t.finish ∧
      t.part = { s.part with
        state := .partnered, holdTimer := .stopped, helloTimer := .stopped
        silenceTimer := .running s.params.silenceLimit
        keepaliveTimer := .running s.params.keepaliveInterval
        repeatMark := false, helloPending := true } ∧
      (∀ f, (s.flow f).suspended = false → t.flow f = s.flow f) ∧
      (∀ f, (s.flow f).suspended = true →
        let fl := s.flow f
        let resumed : Flow := { fl with
          suspended := false
          window := fl.window.map fun e => { e with condition := match e.condition with
            | .outstanding frame => .pendingRetx frame
            | .skipped _ => .skipped .due
            | .sacked frame => .sacked frame
            | .pendingRetx frame => .pendingRetx frame }
          rto := (s.profile f).rtoBase
          retxTimer := .stopped
          statusPending := true }
        (fl.state = .opened ∨ (fl.state = .closing ∧ fl.pendingBlock.isSome = true) ∨
          (fl.state = .draining ∧
            (fl.sendQueue ≠ [] ∨ fl.window ≠ [] ∨ fl.pendingBlock.isSome = true)) →
          t.flow f = resumed) ∧
        (fl.state = .closing → fl.pendingBlock = none →
          t.flow f = { resumed with pendingBlock := some .close }) ∧
        (fl.state = .draining → fl.drainOrigin = some .localEnd → fl.sendQueue = [] →
          fl.window = [] → fl.pendingBlock = none →
          t.flow f = { resumed with
            state := .closing, drainOrigin := none, attempts := 0, pendingBlock := some .close })) ∧
      (∀ f, (s.flow f).endsAtRegain = true →
        (t.flow f).state = .closed ∧ (t.flow f).atRest ∧ (t.flow f).pendingBlock = some .closeAck ∧
          (t.flow f).lower = (s.flow f).lower ∧ (t.flow f).next = (s.flow f).next ∧
          (t.flow f).expected = (s.flow f).expected ∧ (t.flow f).rto = (s.profile f).rtoBase ∧
          (t.flow f).failureCause = (s.flow f).failureCause) ∧
      t.link = { s.link with
        toPartnership := rest
        lifecycleOrder := s.link.lifecycleOrder.filter (fun f => !(s.flow f).owesAtRegain) ++
          (List.finRange 64).filter fun f => (s.flow f).owesAtRegain } ∧
      (∀ f, t.held f = if (s.flow f).endsAtRegain = true then s.held f - (s.flow f).collectedBuffers
        else s.held f) ∧
      (∀ f, readAt t.pool.reservation f =
        if (s.flow f).endsAtRegain = true then 0 else readAt s.pool.reservation f) ∧
      t.pool.heldByFlows + t.pool.free = s.pool.heldByFlows + s.pool.free ∧
      t.pool.bulkHeld = s.pool.bulkHeld ∧
      (let causes := .linkState .lost .partnered .regained ::
          (List.finRange 64).flatMap fun f => (s.flow f).causesAtRegain f
       s.RaisesAmong t causes ∧
        ((∀ f, (s.flow f).endsAtRegain = false) →
          t.pool = s.pool ∧ t.notices = s.notices.takeAll causes)) ∧
      s.Unchanged [.flows, .pool, .link, .part, .notices] t

/-- R51, R66, R81, R100: the silence timer runs out: the partnership becomes LOST, its hold and hello timers
start, a HELLO becomes pending; OPEN, DRAINING and CLOSING flows are marked suspended and otherwise kept;
OPENING flows enter CLOSED and release their reservations, each completing its request PARTNER_LOST and raising
its change of state, in increasing number; other flows are not changed. The order of the causes is the model's
reading (log entry 13), and so is that the completion carries no detail (log entry 16). How many POOL_LOW causes
stand among the others is not said. -/
def Obligations.SilenceSuspendsFlows : Prop :=
  ∀ s : State, s.engine.executing = none → s.part.state = .partnered →
    s.part.silenceTimer = .running 0 →
    ∃ t, exec .silenceTimerExpiry s = .next t.finish ∧
      t.part = { s.part with
        state := .lost, silenceTimer := .stopped, keepaliveTimer := .stopped
        keepalivePending := false, holdTimer := .running (s.params.holdLimit * 1000)
        helloPending := true, helloTimer := .running 200 } ∧
      (∀ f, (s.flow f).state = .opened ∨ (s.flow f).state = .draining ∨
        (s.flow f).state = .closing → t.flow f = { s.flow f with suspended := true }) ∧
      (∀ f, (s.flow f).inUse = false → t.flow f = s.flow f) ∧
      (∀ f, (s.flow f).state = .opening → (t.flow f).state = .closed ∧ (t.flow f).atRest ∧
        (t.flow f).pendingBlock = none ∧ (t.flow f).failureCause = (s.flow f).failureCause) ∧
      (∀ f, readAt t.pool.reservation f =
        if (s.flow f).state = .opening then 0 else readAt s.pool.reservation f) ∧
      (∀ f, t.held f = if (s.flow f).state = .opening then s.held f - (s.flow f).collectedBuffers
        else s.held f) ∧
      t.pool.heldByFlows + t.pool.free = s.pool.heldByFlows + s.pool.free ∧
      t.pool.bulkHeld = s.pool.bulkHeld ∧
      t.link = { s.link with lifecycleOrder :=
        s.link.lifecycleOrder.filter fun f => (s.flow f).state ≠ .opening } ∧
      ((∀ f, (s.flow f).state ≠ .opening) → t.pool = s.pool ∧
        t.notices = s.notices.takeAll [.linkState .partnered .lost .silence]) ∧
      s.RaisesAmong t (.linkState .partnered .lost .silence :: s.flowCauses Flow.causesAtLoss) ∧
      s.Unchanged [.flows, .pool, .link, .part, .notices] t

/-- R51, R68, R72, R77, R80, R83, R100: the hold timer runs out in LOST, or a HELLO of the recorded unit carries a
new epoch and does not confirm this bridge. The partnership becomes JOINING; flows in use enter FAILED with
PARTNER_LOST or PARTNER_RESTART, OPENING flows enter CLOSED, every pending lifecycle block is discarded. A hold
expiry draws a new own epoch; a partner restart records the partner's. A HELLO with a new epoch that confirms does
the same, and then makes the partnership PARTNERED by the handshake. Each flow that ends completes its deferred
request, with the cause of the event as its detail for a FLOW_CLOSE, and raises its change of state, in increasing
number. How an epoch is drawn is free (log entry 1); the order of the causes, and that a completion of PARTNER_LOST
carries no detail, are the model's readings (log entries 13 and 16). How many POOL_LOW causes stand among the others
is not said. -/
def Obligations.PartnershipRestarts : Prop :=
  (∀ s : State, s.engine.executing = none → s.part.state = .lost → s.part.holdTimer = .running 0 →
     ∃ t epoch, exec .holdTimerExpiry s = .next t.finish ∧ s.part.ownEpoch ≠ some epoch ∧
       t.part = { s.part with
         state := .joining, ownEpoch := some epoch, holdTimer := .stopped
         joinTimer := .running (s.params.joinLimit * 1000), helloPending := true } ∧
       s.FlowsEnded t (fun old => if old = .opening then .closed else .failed) (some .partnerLost) ∧
       t.link = { s.link with lifecycleOrder := [] } ∧
       ((∀ f, (s.flow f).inUse = false) → t.pool = s.pool ∧
         t.notices = s.notices.takeAll [.linkState .lost .joining .holdExpired]) ∧
       s.RaisesAmong t (.linkState .lost .joining .holdExpired ::
         s.flowCauses (Flow.causesAtRestart .partnerLost .partnerLost)) ∧
       s.Unchanged [.flows, .pool, .link, .part, .notices, .epochDraws] t) ∧
  (∀ (s : State) (epoch : Epoch) (unit : Address) (seen : Option Epoch) (rest : List LinkBlock),
     s.engine.executing = none → s.link.toPartnership = ⟨epoch, .hello unit seen⟩ :: rest →
     (s.part.state = .partnered ∨ s.part.state = .lost) → unit ≠ s.unitId →
     s.part.partnerUnit = some unit → s.part.partnerEpoch ≠ some epoch → ¬ s.part.confirmedBy seen →
     ∃ t, exec .helloReceived s = .next t.finish ∧
       t.part = { s.part with
         state := .joining, partnerEpoch := some epoch, silenceTimer := .stopped
         keepaliveTimer := .stopped, holdTimer := .stopped, keepalivePending := false
         joinTimer := .running (s.params.joinLimit * 1000), helloPending := true
         helloTimer := if s.part.helloTimer = .stopped then .running 200 else s.part.helloTimer } ∧
       s.FlowsEnded t (fun old => if old = .opening then .closed else .failed)
         (some .partnerRestart) ∧
       t.link = { s.link with toPartnership := rest, lifecycleOrder := [] } ∧
       ((∀ f, (s.flow f).inUse = false) → t.pool = s.pool ∧
         t.notices = s.notices.takeAll [.linkState s.part.state .joining .partnerRestart]) ∧
       s.RaisesAmong t (.linkState s.part.state .joining .partnerRestart ::
         s.flowCauses (Flow.causesAtRestart .partnerRestart .partnerRestart)) ∧
       s.Unchanged [.flows, .pool, .link, .part, .notices] t) ∧
  (∀ (s : State) (epoch : Epoch) (unit : Address) (seen : Option Epoch) (rest : List LinkBlock),
     s.engine.executing = none → s.link.toPartnership = ⟨epoch, .hello unit seen⟩ :: rest →
     (s.part.state = .partnered ∨ s.part.state = .lost) → unit ≠ s.unitId →
     s.part.partnerUnit = some unit → s.part.partnerEpoch ≠ some epoch → s.part.confirmedBy seen →
     ∃ t, exec .helloReceived s = .next t.finish ∧
       t.part = { s.part with
         state := .partnered, partnerEpoch := some epoch, keepalivePending := false
         silenceTimer := .running s.params.silenceLimit
         keepaliveTimer := .running s.params.keepaliveInterval, holdTimer := .stopped
         joinTimer := .stopped, helloTimer := .stopped, helloPending := true, repeatMark := false
         deferredJoin := none } ∧
       s.FlowsEnded t (fun old => if old = .opening then .closed else .failed)
         (some .partnerRestart) ∧
       t.link = { s.link with toPartnership := rest, lifecycleOrder := [] } ∧
       (let joined := .linkState .joining .partnered .handshake :: match s.part.deferredJoin with
          | none => []
          | some tag => [.completion tag 0x30 .done none]
        ((∀ f, (s.flow f).inUse = false) → t.pool = s.pool ∧
          t.notices = s.notices.takeAll (.linkState s.part.state .joining .partnerRestart :: joined)) ∧
        s.RaisesAmong t (.linkState s.part.state .joining .partnerRestart ::
          s.flowCauses (Flow.causesAtRestart .partnerRestart .partnerRestart) ++ joined)) ∧
       s.Unchanged [.flows, .pool, .link, .part, .notices] t)

/-- R51, R69, R84, R87, R100, R152: the partnership ends in SILENT. An accepted LEAVE makes every flow in use FAILED
with PARTNER_LEFT and discards every pending lifecycle block; a join timeout touches no flow and completes the join
TIMEOUT. Both stop every timer, forget the partner, keep the own epoch and a pending LEAVE, and discard the link
replies that no grant has taken. Each flow that a LEAVE ends completes its deferred request, a FLOW_OPEN PARTNER_LOST
and a FLOW_CLOSE ABORTED with detail PARTNER_LEFT, and raises its change of state, in increasing number. Any other
LEAVE is stale. The order of the causes, and that a completion of PARTNER_LOST carries no detail, are the model's
readings (log entries 13 and 16). How many POOL_LOW causes stand among the others is not said. -/
def Obligations.PartnershipEnds : Prop :=
  ∀ s : State, s.engine.executing = none →
    (∀ item ∈ s.engine.linkReply, item.restartResponse = false) →
    let withdrawn : Partnership := { s.part with
      state := .silent, joinTimer := .stopped, helloTimer := .stopped, silenceTimer := .stopped
      keepaliveTimer := .stopped, holdTimer := .stopped, helloPending := false
      keepalivePending := false, partnerEpoch := none, partnerUnit := none }
    let taken := match s.link.transmitter with
      | .sending .linkReply _ => 1
      | .sending .plain _ | .sending .bulkBuffer _ | .sending .restartLeave _ | .idle | .slotOpen => 0
    let engine := { s.engine with linkReply := s.engine.linkReply.take taken }
    (∀ epoch rest, s.link.toPartnership = ⟨epoch, .leave⟩ :: rest →
      ((s.part.state = .partnered ∨ s.part.state = .lost) → s.part.partnerEpoch = some epoch →
        ∃ t, exec .leaveReceived s = .next t.finish ∧ t.part = withdrawn ∧
          s.FlowsEnded t (fun _ => .failed) (some .partnerLeft) ∧
          t.link = { s.link with toPartnership := rest, lifecycleOrder := [] } ∧ t.engine = engine ∧
          ((∀ f, (s.flow f).inUse = false) → t.pool = s.pool ∧
            t.notices = s.notices.takeAll [.linkState s.part.state .silent .partnerLeft]) ∧
          s.RaisesAmong t (.linkState s.part.state .silent .partnerLeft ::
            s.flowCauses Flow.causesAtLeave) ∧
          s.Unchanged [.flows, .pool, .link, .part, .engine, .notices] t) ∧
      (s.part.state = .silent ∨ s.part.state = .joining ∨ s.part.partnerEpoch ≠ some epoch →
        exec .leaveReceived s = .next (State.finish { s with
          link := { s.link with toPartnership := rest }
          deviceCounters := { s.deviceCounters with
            linkRxStale := s.deviceCounters.linkRxStale + 1 } }))) ∧
    (s.part.state = .joining → s.part.joinTimer = .running 0 →
      exec .joinTimerExpiry s = .next (State.finish { s with
        part := { withdrawn with deferredJoin := none }
        engine := engine
        notices := s.notices.takeAll (.linkState .joining .silent .joinTimeout ::
          match s.part.deferredJoin with
          | none => []
          | some tag => [.completion tag 0x30 .timeout none]) }))

/-- R97, R114, R115, R145, R149, R150, R151: an accepted BULK block. Its frame joins the tail of the class queue that
the block names, or is begun at once by an IDLE transmitter with the wired link up and an empty egress, with a buffer
charged to the bulk account; without a buffer it is discarded and counted; a
request from the bound manager for this bridge's station address joins the request queue with origin LINK, takes
no buffer and renews the lease. -/
def Obligations.BulkReceived : Prop :=
  ∀ (s : State) (epoch : Epoch) (cls : PortClass) (frame : Frame) (rest : List LinkBlock),
    s.engine.executing = none → s.link.toBulk = ⟨epoch, .bulk cls frame⟩ :: rest →
    s.part.state = .partnered → s.part.partnerEpoch = some epoch →
    let v := readFrame frame
    let u : State := { s with
      link := { s.link with toBulk := rest }
      part := { s.part with silenceTimer := .running s.params.silenceLimit } }
    (v.etherType ≠ 0x9C41 ∨ v.destination ≠ s.params.stationAddress →
      (s.pool.bulkHeld < s.params.bulkCap → 1 ≤ s.pool.sharedFree →
        ∃ t, exec .bulkReceived s = .next t.finish ∧
          s.wire.Placed cls [⟨.bulk, frame⟩] t.wire ∧
          t.pool.free = s.pool.free - 1 ∧ t.pool.bulkHeld = s.pool.bulkHeld + 1 ∧
          t.pool.held = s.pool.held ∧ t.pool.reservation = s.pool.reservation ∧
          s.Raises t [] ∧ u.Unchanged [.wire, .pool, .notices] t) ∧
      (s.params.bulkCap ≤ s.pool.bulkHeld ∨ s.pool.sharedFree = 0 →
        exec .bulkReceived s = .next (State.finish { u with
          deviceCounters := { s.deviceCounters with
            bulkDropped := s.deviceCounters.bulkDropped + 1 } }))) ∧
    (∀ (h : ManagementHeader) (origin : Origin) (lease remaining : Nat),
      v.etherType = 0x9C41 → v.destination = s.params.stationAddress →
      v.destination ≠ broadcastAddress → readManagement v.payload = some h → h.version = 1 →
      h.kind = 1 → isGroup v.source = false → s.engine.state = .ready →
      s.engine.binding = .bound v.source origin lease remaining →
      s.engine.recorded v.source h.tag = none → s.engine.queued v.source h.tag = false →
      s.engine.requests.length < 8 →
      exec .bulkReceived s = .next (State.finish { u with
        engine := { s.engine with
          requests := s.engine.requests ++ [⟨v.source, .link, h.tag, h.code, h.body⟩]
          binding := .bound v.source origin lease (lease * 1000) } }))

/-! ## Requests -/

/-- R149, R150, R151, R152, R153, R156, R157: what request intake does with a frame, by the wire or in an accepted
BULK block. One that is malformed, that the screen stops or that arrives while RESTARTING is ignored and counted. One
whose source may not have it executed is answered NOT_BOUND; a copy of an answered request draws the saved response
again, a copy of a queued one is ignored, and one that finds 8 requests queued is answered BUSY: each answer is
placed if its path has room and the frame is ignored otherwise. Any other joins the queue, and renews the lease of
the bound manager. A queued request whose source is not bound when it comes to be executed is answered NOT_BOUND,
which is not stored, and does nothing else. That the saved response is sent with the source address that it was formed
with, also after the station address has changed, is the model's reading of R157 beside R152 (log entry 15). -/
def Obligations.IntakeAnswersOrIgnores : Prop :=
  (∀ (s u : State) (c : Instr) (origin : Origin) (v : FrameView), s.Brings c origin v u →
    let ignored : State := { u with deviceCounters := { s.deviceCounters with
      managementIgnored := s.deviceCounters.managementIgnored + 1 } }
    let answered := fun frame =>
      if s.pathRoom 8 4 origin = true then u.replied origin ⟨frame, false⟩ else ignored
    (s.engine.state ≠ .ready ∨ readManagement v.payload = none → exec c s = .next ignored.finish) ∧
    (∀ h, s.engine.state = .ready → readManagement v.payload = some h →
      let admitted := h.code = 0x01 ∨ h.code = 0x02 ∨ s.boundTo v.source = true
      let copies := s.engine.record.filter fun e => e.source == v.source && e.tag == h.tag
      let waits := ∃ r ∈ s.engine.requests, r.source = v.source ∧ r.tag = h.tag
      (¬ s.Screens v h → exec c s = .next ignored.finish) ∧
      (s.Screens v h → ¬ admitted →
        exec c s = .next (answered (s.responseFrame v.source h.tag h.code .notBound [])).finish) ∧
      (s.Screens v h → admitted →
        (∀ entry more, copies = entry :: more →
          exec c s = .next (answered entry.response).finish) ∧
        (copies = [] → waits → exec c s = .next ignored.finish) ∧
        (copies = [] → ¬ waits → 8 ≤ s.engine.requests.length →
          exec c s = .next (answered (s.responseFrame v.source h.tag h.code .busy [])).finish) ∧
        (copies = [] → ¬ waits → s.engine.requests.length < 8 →
          exec c s = .next (State.finish { u with engine := { s.engine with
            requests := s.engine.requests ++ [⟨v.source, origin, h.tag, h.code, h.body⟩]
            binding := match s.engine.binding with
              | .unbound => .unbound
              | .bound manager route lease remaining =>
                .bound manager route lease (if manager = v.source then lease * 1000 else remaining) } }))))) ∧
  (∀ (s : State) (r : Request) (rest : List Request), s.engine.requests = r :: rest →
    s.engine.state = .ready → s.pathRoom 8 4 r.origin = true → (∀ n ∈ s.notices.queue, n.held = none) →
    r.code ≠ 0x01 → r.code ≠ 0x02 → s.boundTo r.source = false →
    exec (commandOfCode r.code) s = .next (State.finish (State.replied
      { s with engine := { s.engine with requests := rest, executing := none } } r.origin
      ⟨s.responseFrame r.source r.tag r.code .notBound [], false⟩)))

/-- R122, R154, R156, R158, R160, R162, R163, R164, R175, R178, R182, R184, Tables 11.4, 11.6 and 11.9: IDENTIFY,
LINK_STATUS and READ_PARAMS answer with the part's identity, the partnership and the eight parameters as they stand,
and change nothing else. A request of any code whose body does not fit it (its length, a flag that Table 11.4 does
not name, a code outside Table 11.10, a flow above 63, a lease outside 1 to 600 s), and a request whose code is none
of Table 11.4, is answered BAD_REQUEST and changes nothing else; what a WRITE_TABLE carries, the range of a
READ_TABLE and the values of a SET_PARAMS are in their own statements. How the remaining lease is rounded to seconds,
and the lease bytes while UNBOUND, are free (log entries 2 and 3). That the identifier bytes of an absent expected
partner are sent as zero is the model's choice (log entry 29), and that a present expected partner has a byte of 0 or
1 is its reading (log entry 18). -/
def Obligations.IdentityAndStatusAnswers : Prop :=
  (∀ (s : State) (r : Request),
     (s.Takes r 0x01 → r.body = [] →
       let identity := beBytes 6 s.unitId.toNat ++ beBytes 6 s.params.stationAddress.toNat ++
         [0x06, 0x04, 0x01]
       (s.engine.binding = .unbound → ∃ lease, s.answersOnly .identify r .ok
         (identity ++ [0, 0, 0, 0, 0, 0, 0] ++ beBytes 2 lease)) ∧
       (∀ manager origin lease remaining, s.engine.binding = .bound manager origin lease remaining →
         ∃ seconds, (seconds = remaining / 1000 ∨ seconds = (remaining + 999) / 1000) ∧
           s.answersOnly .identify r .ok
             (identity ++ [1] ++ beBytes 6 manager.toNat ++ beBytes 2 seconds))) ∧
     (s.Takes r 0x32 → r.body = [] → ∃ body, s.answersOnly .linkStatus r .ok body ∧
       body.length = 18 ∧ byteAt body 0 = LinkState.code s.part.state ∧
       (byteAt body 1).testBit 0 = s.part.ownEpoch.isSome ∧
       (byteAt body 1).testBit 1 = s.part.partnerEpoch.isSome ∧
       (byteAt body 1).testBit 2 = s.part.partnerUnit.isSome ∧
       (byteAt body 1).testBit 3 = s.part.deferredJoin.isSome ∧
       (byteAt body 1).testBit 4 = s.part.leavePending.isSome ∧
       field body 2 4 = (s.part.ownEpoch.getD 0).toNat ∧
       field body 6 4 = (s.part.partnerEpoch.getD 0).toNat ∧
       field body 10 6 = (s.part.partnerUnit.getD 0).toNat ∧
       field body 16 2 = (s.part.deferredJoin.getD 0).toNat) ∧
     (s.Takes r 0x42 → r.body = [] → s.answersOnly .readParams r .ok
       ([0xFF] ++ beBytes 6 s.params.stationAddress.toNat ++ beBytes 2 s.params.silenceLimit ++
         beBytes 2 s.params.keepaliveInterval ++ beBytes 2 s.params.holdLimit ++
         beBytes 2 s.params.joinLimit ++
         (match s.params.expectedPartner with
           | some unit => [1] ++ beBytes 6 unit.toNat
           | none => [0, 0, 0, 0, 0, 0, 0]) ++
         beBytes 1 s.params.bulkCap ++ beBytes 2 s.params.poolLow)) ∧
     (r.body ≠ [] →
       (s.Takes r 0x01 → s.answersOnly .identify r .badRequest []) ∧
       (s.Takes r 0x32 → s.answersOnly .linkStatus r .badRequest []) ∧
       (s.Takes r 0x42 → s.answersOnly .readParams r .badRequest []))) ∧
  (∀ (s : State) (r : Request), s.Takes r r.code →
     r.code ∉ [0x01, 0x02, 0x03, 0x10, 0x11, 0x12, 0x13, 0x20, 0x21, 0x22, 0x23, 0x24, 0x30, 0x31, 0x32,
       0x40, 0x41, 0x42, 0x43, 0x44] →
     s.answersOnly .unknownRequest r .badRequest []) ∧
  (∀ (s : State) (r : Request), s.Takes r r.code → ¬ bodyFits r.code r.body →
     s.answersOnly (commandOfCode r.code) r .badRequest [])

/-- R161, R158, R184, Table 11.8: FLOW_STATUS answers with the flow's context as it stands and changes nothing
else; a flow above 63, or a body that is not one byte, is BAD_REQUEST. That a frozen timer is
reported as running is the model's reading (log entry 17). -/
def Obligations.FlowStatusAnswers : Prop :=
  ∀ (s : State) (r : Request), s.Takes r 0x24 →
    (∀ f : FlowId, r.body = [BitVec.ofNat 8 f.val] →
      let fl := s.flow f
      ∃ body, s.answersOnly .flowStatus r .ok body ∧ body.length = 26 ∧
        byteAt body 0 = f.val ∧ byteAt body 1 = FlowState.code fl.state ∧
        (byteAt body 2).testBit 0 = fl.suspended ∧
        ((byteAt body 2).testBit 1 = true ↔ fl.retxTimer ≠ .stopped) ∧
        (byteAt body 2).testBit 2 = fl.statusPending ∧
        (byteAt body 2).testBit 3 = fl.deferred.isSome ∧
        byteAt body 3 = (match fl.drainOrigin with
          | none => 0 | some .localEnd => 1 | some .peerEnd => 2) ∧
        byteAt body 4 = (match fl.failureCause with
          | none => 0 | some .peerAbort => 4 | some .retryExhausted => 5 | some .partnerRestart => 6
          | some .partnerLost => 7 | some .partnerLeft => 8) ∧
        byteAt body 5 = readAt s.pool.reservation f % 256 ∧ field body 6 2 = s.held f % 65536 ∧
        byteAt body 8 = (match fl.deferred with
          | none => 0 | some ⟨.flowOpen, _⟩ => 0x20 | some ⟨.flowClose, _⟩ => 0x21) ∧
        field body 9 2 = (match fl.deferred with | none => 0 | some d => d.tag.toNat) ∧
        byteAt body 11 = pendingBlockCode fl.pendingBlock ∧ byteAt body 12 = fl.attempts % 256 ∧
        field body 13 2 = fl.lower.toNat ∧ field body 15 2 = fl.next.toNat ∧
        field body 17 2 = fl.expected.toNat ∧ field body 19 2 = fl.rto % 65536 ∧
        field body 21 2 = fl.sendQueue.length % 65536 ∧ byteAt body 23 = fl.window.length % 256 ∧
        byteAt body 24 = fl.window.countP (·.due) % 256 ∧ byteAt body 25 = fl.reorder.length % 256) ∧
    ((∀ f : FlowId, r.body ≠ [BitVec.ofNat 8 f.val]) →
      s.answersOnly .flowStatus r .badRequest [])

/-- R122, R182: READ_TABLE answers with the active bank, the generation and the entries named, in index order,
each entry of the active classification table followed by its hit count, and changes nothing else; a count
outside 1..16 or a range beyond the table is BAD_REQUEST. -/
def Obligations.ReadTableAnswers : Prop :=
  ∀ (s : State) (r : Request) (bank : BankId) (first count : Byte), s.Takes r 0x10 →
    let head := beBytes 1 (BankId.code s.tables.active) ++ beBytes 4 s.tables.generation.toNat ++ r.body
    let b := s.tables.bank bank
    let bankByte := BitVec.ofNat 8 (BankId.code bank)
    (r.body = [bankByte, 0, first, count] → 1 ≤ count.toNat → count.toNat ≤ 16 →
      first.toNat + count.toNat ≤ 128 →
      s.answersOnly .readTable r .ok (head ++
        (((b.entries.toList.zip s.hits.toList).drop first.toNat).take count.toNat).flatMap fun e =>
          classEntryBytes e.1 ++ if bank = s.tables.active then beBytes 4 e.2.toNat else [])) ∧
    (r.body = [bankByte, 1, first, count] → 1 ≤ count.toNat → count.toNat ≤ 16 →
      first.toNat + count.toNat ≤ 64 →
      s.answersOnly .readTable r .ok (head ++
        ((b.profiles.toList.drop first.toNat).take count.toNat).flatMap profileBytes)) ∧
    (r.body = [bankByte, 2, 0, 1] →
      s.answersOnly .readTable r .ok (head ++ plainActionBytes b.default)) ∧
    (∀ table : Byte, r.body = [bankByte, table, first, count] →
      2 < table.toNat ∨ count = 0 ∨ 16 < count.toNat ∨
        (table = 0 ∧ 128 < first.toNat + count.toNat) ∨
        (table = 1 ∧ 64 < first.toNat + count.toNat) ∨ (table = 2 ∧ 1 < first.toNat + count.toNat) →
      s.answersOnly .readTable r .badRequest [])

/-- R153, R154, R155: a BIND with a lease of 1..600 s binds its source, with its origin and lease, when the
binding is UNBOUND or its own or when it is forced; otherwise it is answered HELD_BY_OTHER with the manager's
address. A lease outside the range, or a flag other than force, is BAD_REQUEST. An UNBIND, and the lease timer
running out, make the binding UNBOUND. -/
def Obligations.BindingChanges : Prop :=
  (∀ (s : State) (r : Request) (hi lo flags : Byte), s.Takes r 0x02 → r.body = [hi, lo, flags] →
     let lease := hi.toNat * 256 + lo.toNat
     (1 ≤ lease → lease ≤ 600 → flags = 0 ∨ flags = 1 →
       (s.boundTo r.source = true ∨ s.engine.binding = .unbound ∨ flags = 1 →
         ∃ t, exec .bind s = .next t.finish ∧ s.Answers t r .ok [] s.engine.linkReply ∧
           t.engine.binding = .bound r.source r.origin lease (lease * 1000) ∧
           t.engine.state = .ready ∧ t.notices = s.notices ∧
           s.Unchanged [.engine, .wire, .notices] t) ∧
       (∀ manager origin held remaining,
         s.engine.binding = .bound manager origin held remaining → manager ≠ r.source → flags = 0 →
         s.answersOnly .bind r .heldByOther (beBytes 6 manager.toNat))) ∧
     (lease = 0 ∨ 600 < lease ∨ 1 < flags.toNat → s.answersOnly .bind r .badRequest [])) ∧
  (∀ (s : State) (r : Request), s.Takes r 0x03 → r.body = [] →
     ∃ t, exec .unbind s = .next t.finish ∧ s.Answers t r .ok [] s.engine.linkReply ∧
       t.engine.binding = .unbound ∧ t.engine.state = .ready ∧ t.notices = s.notices ∧
       s.Unchanged [.engine, .wire, .notices] t) ∧
  (∀ (s : State) (manager : Address) (origin : Origin) (lease : Nat),
     s.engine.binding = .bound manager origin lease 0 →
     exec .leaseTimerExpiry s = .next (State.finish { s with
       engine := { s.engine with binding := .unbound } }))

/-- R123, R124, R125, R159: a WRITE_TABLE whose entries are all good replaces them in the shadow bank and answers
the generation; one with a bad entry is answered BAD_ENTRY with the index of the first, and writes nothing. The
active bank, the indicator and the generation stay. A table code above 2, a count outside 1..16, a range beyond the
table or a body of another length is BAD_REQUEST. -/
def Obligations.WriteTableWrites : Prop :=
  ∀ (s : State) (r : Request) (first : Byte), s.Takes r 0x11 →
    let generation := beBytes 4 s.tables.generation.toNat
    let writes := fun (b : Bank) =>
      ∃ t, exec .writeTable s = .next t.finish ∧ s.Answers t r .ok generation s.engine.linkReply ∧
        s.EngineKept t ∧ t.notices = s.notices ∧ t.tables.shadowBank = b ∧
        t.tables.activeBank = s.tables.activeBank ∧ t.tables.active = s.tables.active ∧
        t.tables.generation = s.tables.generation ∧ s.Unchanged [.tables, .engine, .wire, .notices] t
    let b := s.tables.shadowBank
    (∀ profiles : List Profile, 1 ≤ profiles.length → profiles.length ≤ 16 →
      first.toNat + profiles.length ≤ 64 → (∀ p ∈ profiles, p.inRange = true) →
      r.body = [1, first, BitVec.ofNat 8 profiles.length] ++ profiles.flatMap profileBytes →
      let written := fun (f : Fin 64) =>
        if first.toNat ≤ f.val then (profiles[f.val - first.toNat]?).getD (readAt b.profiles f)
        else readAt b.profiles f
      writes { b with profiles := tabulate written }) ∧
    (∀ entries : List (List Byte × ClassEntry), 1 ≤ entries.length → entries.length ≤ 16 →
      first.toNat + entries.length ≤ 128 →
      (∀ e ∈ entries, e.1.length = 33 ∧ classEntryOfBytes e.1 = some e.2) →
      r.body = [0, first, BitVec.ofNat 8 entries.length] ++ entries.flatMap (·.1) →
      let written := fun (i : Fin 128) =>
        if first.toNat ≤ i.val then (entries[i.val - first.toNat]?.map (·.2)).getD (readAt b.entries i)
        else readAt b.entries i
      writes { b with entries := tabulate written }) ∧
    (∀ (a : PlainAction) (bytes : List Byte), bytes.length = 2 → defaultOfBytes bytes = some a →
      r.body = [2, 0, 1] ++ bytes → writes { b with default := a }) ∧
    (∀ (profiles : List Profile) (bad : List Byte) (rest : List Byte) (count : Byte),
      1 ≤ count.toNat → count.toNat ≤ 16 → first.toNat + count.toNat ≤ 64 →
      profiles.length < count.toNat → (∀ p ∈ profiles, p.inRange = true) → bad.length = 15 →
      profileOfBytes bad = none →
      rest.length = (count.toNat - profiles.length - 1) * 15 →
      r.body = [1, first, count] ++ profiles.flatMap profileBytes ++ bad ++ rest →
      s.answersOnly .writeTable r .badEntry [first + BitVec.ofNat 8 profiles.length]) ∧
    (∀ (entries : List (List Byte)) (bad : List Byte) (rest : List Byte) (count : Byte),
      1 ≤ count.toNat → count.toNat ≤ 16 → first.toNat + count.toNat ≤ 128 →
      entries.length < count.toNat →
      (∀ e ∈ entries, e.length = 33 ∧ (classEntryOfBytes e).isSome = true) → bad.length = 33 →
      classEntryOfBytes bad = none →
      rest.length = (count.toNat - entries.length - 1) * 33 →
      r.body = [0, first, count] ++ entries.flatten ++ bad ++ rest →
      s.answersOnly .writeTable r .badEntry [first + BitVec.ofNat 8 entries.length]) ∧
    (∀ bytes : List Byte, bytes.length = 2 → defaultOfBytes bytes = none →
      r.body = [2, 0, 1] ++ bytes → s.answersOnly .writeTable r .badEntry [0]) ∧
    (∀ (table count : Byte) (entries : List Byte), r.body = [table, first, count] ++ entries →
      2 < table.toNat ∨ count = 0 ∨ 16 < count.toNat ∨
        (table = 0 ∧ (128 < first.toNat + count.toNat ∨ entries.length ≠ count.toNat * 33)) ∨
        (table = 1 ∧ (64 < first.toNat + count.toNat ∨ entries.length ≠ count.toNat * 15)) ∨
        (table = 2 ∧ (1 < first.toNat + count.toNat ∨ entries.length ≠ count.toNat * 2)) →
      s.answersOnly .writeTable r .badRequest []) ∧
    (r.body.length < 3 → s.answersOnly .writeTable r .badRequest [])

/-- R126: a COPY_BANK makes the shadow bank an exact copy of the active bank; the active bank, the indicator, the
generation and the hit counts do not change, and the response carries the generation. -/
def Obligations.CopyBankCopies : Prop :=
  ∀ (s : State) (r : Request), s.Takes r 0x12 → r.body = [] →
    ∃ t, exec .copyBank s = .next t.finish ∧
      s.Answers t r .ok (beBytes 4 s.tables.generation.toNat) s.engine.linkReply ∧ s.EngineKept t ∧
      t.notices = s.notices ∧ t.tables.shadowBank = s.tables.activeBank ∧
      t.tables.activeBank = s.tables.activeBank ∧ t.tables.active = s.tables.active ∧
      t.tables.generation = s.tables.generation ∧ s.Unchanged [.tables, .engine, .wire, .notices] t

/-- R127, R128, R129, R130, R159: a COMMIT is refused, changing nothing, when its expected generation is not
current, when a valid shadow entry names a flow that is DISABLED there (with the first such index), or when a
flow that is not CLOSED or holds a buffer would change a structural field (with the first such flow). Otherwise
the banks change places, the generation rises by one and the hit counts return to 0. -/
def Obligations.CommitChecksAndSwaps : Prop :=
  ∀ (s : State) (r : Request) (expected : BitVec 32), s.Takes r 0x13 →
    r.body = beBytes 4 expected.toNat →
    let b := s.tables.shadowBank
    let dangles := fun i : Fin 128 => (readAt b.entries i).valid = true ∧
      ∃ f, (readAt b.entries i).action = .flow f ∧ (readAt b.profiles f).mode = .disabled
    let changes := fun f : FlowId => ((s.flow f).state ≠ .closed ∨ 0 < s.held f) ∧
      let p := readAt b.profiles f
      let q := s.profile f
      ¬ (p.mode = q.mode ∧ p.window = q.window ∧ p.order = q.order ∧ p.reserve = q.reserve ∧
        p.cap = q.cap)
    (expected ≠ s.tables.generation → s.answersOnly .commit r .staleGeneration
      (beBytes 4 s.tables.generation.toNat)) ∧
    (expected = s.tables.generation →
      (∀ i, dangles i → (∀ j, j < i → ¬ dangles j) →
        s.answersOnly .commit r .danglingFlow (beBytes 1 i.val)) ∧
      ((∀ i, ¬ dangles i) → ∀ f, changes f → (∀ k, k < f → ¬ changes k) →
        s.answersOnly .commit r .structuralChange (beBytes 1 f.val)) ∧
      ((∀ i, ¬ dangles i) → (∀ f, ¬ changes f) →
        ∃ t, exec .commit s = .next t.finish ∧
          s.Answers t r .ok (beBytes 4 (s.tables.generation + 1).toNat) s.engine.linkReply ∧
          s.EngineKept t ∧ t.notices = s.notices ∧ t.tables.activeBank = b ∧
          t.tables.shadowBank = s.tables.activeBank ∧ t.tables.active ≠ s.tables.active ∧
          t.tables.generation = s.tables.generation + 1 ∧ (∀ i, readAt t.hits i = 0) ∧
          s.Unchanged [.tables, .hits, .engine, .wire, .notices] t))

/-- R1, R26, R50, R52, R94, R158: a FLOW_OPEN for a CLOSED flow, RELIABLE, while PARTNERED and with its reserve in
shared free, is ACCEPTED: the reservation is made, the context reinitialised, an OPEN with the profile's window
and order is pending and the flow is OPENING. Each failing check gives its own refusal, in order, and changes
nothing. -/
def Obligations.FlowOpenTaken : Prop :=
  ∀ (s : State) (r : Request) (f : FlowId), s.Takes r 0x20 → r.body = [BitVec.ofNat 8 f.val] →
    let fl := s.flow f
    let p := s.profile f
    let pending := fl.state = .opening ∧ ∃ tag, fl.deferred = some ⟨.flowOpen, tag⟩
    (pending → s.answersOnly .flowOpen r .inProgress []) ∧
    (¬ pending → fl.state ≠ .closed → s.answersOnly .flowOpen r .wrongState []) ∧
    (fl.state = .closed → p.mode = .disabled → s.answersOnly .flowOpen r .notReliable []) ∧
    (fl.state = .closed → p.mode = .reliable → s.part.state ≠ .partnered →
      s.answersOnly .flowOpen r .noPartner []) ∧
    (fl.state = .closed → p.mode = .reliable → s.part.state = .partnered →
      s.pool.sharedFree < p.reserve → s.answersOnly .flowOpen r .noBuffers []) ∧
    (fl.state = .closed → p.mode = .reliable → s.part.state = .partnered →
      p.reserve ≤ s.pool.sharedFree →
      ∃ t, exec .flowOpen s = .next t.finish ∧ s.Answers t r .accepted [] s.engine.linkReply ∧
        s.EngineKept t ∧
        t.flow f = { fl with
          state := .opening, sendQueue := [], lower := 0, next := 0, window := [], txOrder := []
          rto := p.rtoBase, retxTimer := .stopped, expected := 0, reorder := [], dataSince := 0
          ackTimer := .stopped, statusPending := false, attempts := 0
          pendingBlock := some (.openFlow p.window p.order), deferred := some ⟨.flowOpen, r.tag⟩ } ∧
        (∀ k, k ≠ f → t.flow k = s.flow k) ∧
        t.pool = { s.pool with
          reservation := writeAt s.pool.reservation f p.reserve, lowArmed := t.pool.lowArmed } ∧
        t.link = s.link.queued f ∧ s.Raises t [.flowState f .closed .opening .request] ∧
        s.Unchanged [.flows, .pool, .link, .engine, .wire, .notices] t)

/-- R57, R58, R62, R64, R158: FLOW_CLOSE starts the drain of an OPEN flow, which becomes CLOSING at once, owing a
CLOSE, when it has nothing left to send; FLOW_ABORT ends a flow in use in CLOSED, owing an ABORT while
PARTNERED; FLOW_RESET returns a FAILED flow to CLOSED with its pending block kept. In the other states each
answers what its rule says and changes nothing. The order of the causes is the
model's reading (log entry 13). -/
def Obligations.FlowCloseAbortReset : Prop :=
  ∀ (s : State) (r : Request) (f : FlowId), r.body = [BitVec.ofNat 8 f.val] →
    let fl := s.flow f
    (s.Takes r 0x21 →
      (fl.state = .opened → fl.busyDraining →
        ∃ t, exec .flowClose s = .next t.finish ∧ s.Answers t r .accepted [] s.engine.linkReply ∧
          s.EngineKept t ∧
          t.flow f = { fl with
            state := .draining, drainOrigin := some .localEnd
            deferred := some ⟨.flowClose, r.tag⟩ } ∧
          (∀ k, k ≠ f → t.flow k = s.flow k) ∧
          t.notices = s.notices.takeAll [.flowState f .opened .draining .request] ∧
          s.Unchanged [.flows, .engine, .wire, .notices] t) ∧
      (fl.state = .opened → ¬ fl.busyDraining →
        ∃ t, exec .flowClose s = .next t.finish ∧ s.Answers t r .accepted [] s.engine.linkReply ∧
          s.EngineKept t ∧
          t.flow f = { fl with
            state := .closing, drainOrigin := none, deferred := some ⟨.flowClose, r.tag⟩
            pendingBlock := some .close, attempts := 0, retxTimer := .stopped } ∧
          (∀ k, k ≠ f → t.flow k = s.flow k) ∧ t.link = s.link.queued f ∧
          t.notices = s.notices.takeAll [.flowState f .opened .draining .request,
            .flowState f .draining .closing .drained] ∧
          s.Unchanged [.flows, .link, .engine, .wire, .notices] t) ∧
      (fl.state = .draining ∨ fl.state = .closing → s.answersOnly .flowClose r .inProgress []) ∧
      (fl.state = .closed ∨ fl.state = .opening ∨ fl.state = .failed →
        s.answersOnly .flowClose r .wrongState [])) ∧
    (s.Takes r 0x22 →
      (fl.inUse = true → fl.collectedBuffers ≤ s.held f →
        ∃ t, exec .flowAbort s = .next t.finish ∧ s.Answers t r .ok [] s.engine.linkReply ∧
          s.EngineKept t ∧ s.FlowEnded t f .closed ∧ (t.flow f).failureCause = fl.failureCause ∧
          (s.part.state = .partnered →
            (t.flow f).pendingBlock = some .abort ∧ t.link = s.link.queued f) ∧
          (s.part.state ≠ .partnered →
            (t.flow f).pendingBlock = none ∧ t.link = s.link.unqueued f) ∧
          s.Raises t (fl.completion (fun _ => (.aborted, none)) ++
            [.flowState f fl.state .closed .request]) ∧
          s.Unchanged [.flows, .pool, .link, .engine, .wire, .notices] t) ∧
      (fl.inUse = false → s.answersOnly .flowAbort r .ok [])) ∧
    (s.Takes r 0x23 →
      (fl.state = .failed → fl.atRest → readAt s.pool.reservation f = 0 →
        ∃ t, exec .flowReset s = .next t.finish ∧ s.Answers t r .ok [] s.engine.linkReply ∧
          s.EngineKept t ∧ t.flow f = { fl with state := .closed } ∧
          (∀ k, k ≠ f → t.flow k = s.flow k) ∧
          t.notices = s.notices.takeAll [.flowState f .failed .closed .request] ∧
          s.Unchanged [.flows, .engine, .wire, .notices] t) ∧
      (fl.state ≠ .failed → s.answersOnly .flowReset r .wrongState []))

/-- R51, R69, R72, R73, R86, R100, R152, R158: a LINK_JOIN in SILENT is ACCEPTED: it draws a new own epoch, starts
the join and hello timers, makes a HELLO pending and holds its tag. A LINK_LEAVE outside SILENT ends the partnership:
the flows in use enter CLOSED, each completing its deferred request ABORTED and raising its change of state, in
increasing number; a LEAVE with the own epoch is pending from PARTNERED and LOST, and a deferred join completes
ABORTED. In the other states each answers what its rule says and changes nothing. The order of the causes is the
model's reading, and how an epoch is drawn is free (log entries 13 and 1). How many POOL_LOW causes stand among the
others is not said. -/
def Obligations.JoinAndLeave : Prop :=
  ∀ (s : State) (r : Request), r.body = [] →
    (s.Takes r 0x30 →
      (s.part.state = .silent →
        ∃ t epoch, exec .linkJoin s = .next t.finish ∧
          s.Answers t r .accepted [] s.engine.linkReply ∧ s.EngineKept t ∧
          s.part.ownEpoch ≠ some epoch ∧
          t.part = { s.part with
            state := .joining, ownEpoch := some epoch, deferredJoin := some r.tag
            joinTimer := .running (s.params.joinLimit * 1000), helloPending := true
            helloTimer := .running 200 } ∧
          t.notices = s.notices.takeAll [.linkState .silent .joining .request] ∧
          s.Unchanged [.part, .engine, .wire, .notices, .epochDraws] t) ∧
      (s.part.state = .joining → s.part.deferredJoin.isSome = true →
        s.answersOnly .linkJoin r .inProgress []) ∧
      ((s.part.state = .joining ∧ s.part.deferredJoin = none) ∨ s.part.state = .partnered ∨
          s.part.state = .lost → s.answersOnly .linkJoin r .wrongState [])) ∧
    (s.Takes r 0x31 →
      (s.part.state = .silent → s.answersOnly .linkLeave r .ok []) ∧
      (s.part.state ≠ .silent → (∀ item ∈ s.engine.linkReply, item.restartResponse = false) →
        let taken := match s.link.transmitter with
          | .sending .linkReply _ => 1
          | .sending .plain _ | .sending .bulkBuffer _ | .sending .restartLeave _ | .idle
          | .slotOpen => 0
        ∃ t, exec .linkLeave s = .next t.finish ∧
          s.Answers t r .ok [] (s.engine.linkReply.take taken) ∧ s.EngineKept t ∧
          t.part = { s.part with
            state := .silent, joinTimer := .stopped, helloTimer := .stopped
            silenceTimer := .stopped, keepaliveTimer := .stopped, holdTimer := .stopped
            helloPending := false, keepalivePending := false, partnerEpoch := none
            partnerUnit := none, deferredJoin := none
            leavePending :=
              if s.part.state = .joining then s.part.leavePending else s.part.ownEpoch } ∧
          s.FlowsEnded t (fun _ => .closed) none ∧
          t.link = { s.link with lifecycleOrder := [] } ∧
          (let joined := match s.part.deferredJoin with
             | none => []
             | some tag => [.completion tag 0x30 .aborted none]
           ((∀ f, (s.flow f).inUse = false) → t.pool = s.pool ∧
             t.notices = s.notices.takeAll (.linkState s.part.state .silent .request :: joined)) ∧
           s.RaisesAmong t (.linkState s.part.state .silent .request ::
             s.flowCauses Flow.causesAtLocalLeave ++ joined)) ∧
          s.Unchanged [.flows, .pool, .link, .part, .engine, .wire, .notices] t))

/-- R163, R182, Table 11.5: a SET_PARAMS whose present parameters are all in range, and which changes the expected
partner only while SILENT and lowers the bulk cap to no less than the bulk held count, replaces exactly the
parameters that its presence bits name; otherwise it is refused and changes none. -/
def Obligations.SetParamsReplaces : Prop :=
  ∀ (s : State) (r : Request) (presence : Byte) (a : Address) (silence keepalive hold join low : Nat)
      (partner : Option Address) (cap : Nat), s.Takes r 0x41 →
    silence < 65536 → keepalive < 65536 → hold < 65536 → join < 65536 → cap < 256 → low < 65536 →
    r.body = [presence] ++ beBytes 6 a.toNat ++ beBytes 2 silence ++ beBytes 2 keepalive ++
      beBytes 2 hold ++ beBytes 2 join ++
      (match partner with
        | some unit => [1] ++ beBytes 6 unit.toNat
        | none => [0, 0, 0, 0, 0, 0, 0]) ++ beBytes 1 cap ++ beBytes 2 low →
    let p := s.params
    let present := fun k : Nat => presence.getLsbD k = true
    let q : Params := {
      stationAddress := if present 0 then a else p.stationAddress
      silenceLimit := if present 1 then silence else p.silenceLimit
      keepaliveInterval := if present 2 then keepalive else p.keepaliveInterval
      holdLimit := if present 3 then hold else p.holdLimit
      joinLimit := if present 4 then join else p.joinLimit
      expectedPartner := if present 5 then partner else p.expectedPartner
      bulkCap := if present 6 then cap else p.bulkCap
      poolLow := if present 7 then low else p.poolLow }
    let ranged := (present 0 → isGroup a = false ∧ a ≠ 0) ∧
      (present 1 → 100 ≤ silence ∧ silence ≤ 5000) ∧ (present 2 → 50 ≤ keepalive ∧ keepalive ≤ 2000) ∧
      (present 3 → 1 ≤ hold ∧ hold ≤ 600) ∧ (present 4 → 1 ≤ join ∧ join ≤ 600) ∧
      (present 6 → cap ≤ 128) ∧ (present 7 → low ≤ 512) ∧ q.keepaliveInterval < q.silenceLimit
    let partnerKept := q.expectedPartner = p.expectedPartner ∨ s.part.state = .silent
    (¬ ranged → s.answersOnly .setParams r .badRequest []) ∧
    (ranged → ¬ partnerKept → s.answersOnly .setParams r .wrongState []) ∧
    (ranged → partnerKept → present 6 → cap < s.pool.bulkHeld →
      s.answersOnly .setParams r .wrongState []) ∧
    (ranged → partnerKept → (present 6 → s.pool.bulkHeld ≤ cap) →
      ∃ t, exec .setParams s = .next t.finish ∧ s.Answers t r .ok [] s.engine.linkReply ∧
        s.EngineKept t ∧ t.params = q ∧ t.notices = s.notices ∧
        s.Unchanged [.params, .engine, .wire, .notices] t)

/-- R101, R175, R178, R182: SET_NOTICES replaces the mask with the marks carried and answers it; READ_COUNTERS
answers every counter of its scope, for DEVICE with the pool's figures (its flow byte is free, log entry 4), and
with the clear flag returns the counters of that scope to 0. -/
def Obligations.NoticeMaskAndCounters : Prop :=
  ∀ (s : State) (r : Request),
    (s.Takes r 0x43 → ∀ mask : Byte, r.body = [mask] →
      (mask.toNat < 8 →
        ∃ t, exec .setNotices s = .next t.finish ∧ s.Answers t r .ok [mask] s.engine.linkReply ∧
          s.EngineKept t ∧
          t.notices = { s.notices with
            flowStateEnabled := mask.getLsbD 0
            linkStateEnabled := mask.getLsbD 1
            poolLowEnabled := mask.getLsbD 2 } ∧
          s.Unchanged [.engine, .wire, .notices] t) ∧
      (8 ≤ mask.toNat → s.answersOnly .setNotices r .badRequest [])) ∧
    (s.Takes r 0x40 → ∀ flow flags : Byte,
      (r.body = [0, flow, flags] → flags = 0 ∨ flags = 1 →
        let c := s.deviceCounters
        ∃ t byte, exec .readCounters s = .next t.finish ∧
          s.Answers t r .ok ([0, byte] ++
            [c.wireRxBad, c.wireUnmatched, c.managementIgnored, c.linkRxBad, c.linkRxMalformed,
              c.linkRxStale, c.linkRxForeign, c.bulkDropped, c.blocksTransmitted,
              c.blocksReceived].flatMap (fun n => beBytes 4 n.toNat) ++
            beBytes 2 s.pool.free ++ beBytes 2 s.pool.sharedFree ++ beBytes 1 s.pool.bulkHeld)
            s.engine.linkReply ∧ s.EngineKept t ∧ t.notices = s.notices ∧
          t.deviceCounters = (if flags = 1 then DeviceCounters.zero else s.deviceCounters) ∧
          s.Unchanged [.engine, .wire, .notices, .deviceCounters] t) ∧
      (∀ f : FlowId, flow.toNat = f.val → r.body = [1, flow, flags] → flags = 0 ∨ flags = 1 →
        let c := readAt s.flowCounters f
        ∃ t, exec .readCounters s = .next t.finish ∧
          s.Answers t r .ok ([1, flow] ++
            [c.txAccepted, c.txRefused, c.txDiverted, c.dataSent, c.dataRetransmitted, c.skipped,
              c.rxDelivered, c.rxDuplicate, c.rxRefused, c.rxOutOfWindow,
              c.statusStale].flatMap fun n => beBytes 4 n.toNat) s.engine.linkReply ∧
          s.EngineKept t ∧ t.notices = s.notices ∧
          t.flowCounters = (if flags = 1 then writeAt s.flowCounters f FlowCounters.zero
            else s.flowCounters) ∧
          s.Unchanged [.engine, .wire, .notices, .flowCounters] t) ∧
      (∀ scope : Byte, r.body = [scope, flow, flags] →
        1 < scope.toNat ∨ (scope = 1 ∧ 63 < flow.toNat) ∨ 1 < flags.toNat →
        s.answersOnly .readCounters r .badRequest []))

/-- R84, R87, R91, R141, R145, R146, R147, R152, R165, R166, R167: a RESTART is answered OK and the engine awaits the
response's departure. When the response leaves, by the end of its frame on the wire (of itself, or as the wired link
goes down) or of its BULK block on the link, while PARTNERED or LOST, a LEAVE with the own epoch becomes pending and
the engine awaits its end, which applies the restart; in SILENT or JOINING the restart is applied at once, as it is
when a response for the link meets SILENT, or is discarded untaken as the partnership becomes SILENT by a LEAVE or a
join timeout. A frame on the wire or a block on the link that is in transmission when the restart is applied is sent
to its end, which then releases nothing and changes no queue (WireTransmitterTakesAndReleases,
SlotsAndTransmissionEnds); where the end of the response or of the LEAVE applies it, that transmission is over. What
else a restart keeps of the ports is the model's reading (log entry 20). -/
def Obligations.RestartApplied : Prop :=
  (∀ (s : State) (r : Request), s.Takes r 0x44 → r.body = [] →
     (r.origin = .wire ∨ s.part.state ≠ .silent →
       ∃ t, exec .restart s = .next t.finish ∧ s.Answers t r .ok [] s.engine.linkReply ∧
         t.engine.state = .awaitResponse ∧ t.engine.binding = s.engine.binding ∧
         t.notices = s.notices ∧ s.Unchanged [.engine, .wire, .notices] t) ∧
     (r.origin = .link → s.part.state = .silent →
       ∃ t, exec .restart s = .next t.finish ∧ s.Restarted t)) ∧
  (∀ (s : State) (bytes : List Byte) (frame : Frame) (rest : List ReplyItem),
     s.wire.transmitter = .sending .management bytes →
     s.wire.managementEgress = ⟨frame, true⟩ :: rest →
     (s.part.state = .partnered ∨ s.part.state = .lost →
       let departed : State := { s with
         part := { s.part with leavePending := s.part.ownEpoch }
         engine := { s.engine with state := .awaitLeave } }
       (∃ w, exec .wireTransmissionEnd s = .next (State.finish { departed with wire := w }) ∧
         WirePort.TakesNext { s.wire with managementEgress := rest } w) ∧
       exec .wiredLinkDown s = .next (State.finish { departed with
         wire := { s.wire with linkUp := false, managementEgress := rest, transmitter := .idle } })) ∧
     (s.part.state = .silent ∨ s.part.state = .joining →
       ∃ t, s.Restarted t ∧
         exec .wireTransmissionEnd s = .next (State.finish { t with
           wire := { t.wire with transmitter := .idle } }) ∧
         exec .wiredLinkDown s = .next (State.finish { t with
           wire := { t.wire with transmitter := .idle, linkUp := false } }))) ∧
  (∀ (s : State) (bytes : List Byte) (frame : Frame) (rest : List ReplyItem),
     s.link.transmitter = .sending .linkReply bytes → s.engine.linkReply = ⟨frame, true⟩ :: rest →
     let transmitter : LinkTransmitter := if s.link.slotSignal then .slotOpen else .idle
     (s.part.state = .partnered ∨ s.part.state = .lost →
       exec .linkTransmissionEnd s = .next (State.finish { s with
         link := { s.link with transmitter := transmitter }
         part := { s.part with leavePending := s.part.ownEpoch }
         engine := { s.engine with linkReply := rest, state := .awaitLeave } })) ∧
     (s.part.state = .silent ∨ s.part.state = .joining →
       ∃ t, exec .linkTransmissionEnd s = .next t.finish ∧
         State.Restarted { s with link := { s.link with transmitter := transmitter } } t)) ∧
  (∀ s : State, s.engine.executing = none →
     let taken := match s.link.transmitter with
       | .sending .linkReply _ => 1
       | .sending .plain _ | .sending .bulkBuffer _ | .sending .restartLeave _ | .idle | .slotOpen => 0
     (∃ item ∈ s.engine.linkReply.drop taken, item.restartResponse = true) →
     (∀ epoch rest, s.link.toPartnership = ⟨epoch, .leave⟩ :: rest →
       (s.part.state = .partnered ∨ s.part.state = .lost) → s.part.partnerEpoch = some epoch →
       ∃ t, exec .leaveReceived s = .next t.finish ∧
         State.Restarted { s with link := { s.link with toPartnership := rest } } t) ∧
     (s.part.state = .joining → s.part.joinTimer = .running 0 →
       ∃ t, exec .joinTimerExpiry s = .next t.finish ∧ s.Restarted t)) ∧
  (∀ (s : State) (bytes : List Byte), s.link.transmitter = .sending .restartLeave bytes →
     let transmitter : LinkTransmitter := if s.link.slotSignal then .slotOpen else .idle
     ∃ t, exec .linkTransmissionEnd s = .next t.finish ∧
       State.Restarted { s with link := { s.link with transmitter := transmitter } } t)

end
end

