-- ==== Sys2Proof/Laws/Bytes.lean ====
section
/-! SUPPORT. Fields of bytes, most significant byte first (section 11): what is written reads back, and what is read
writes back. -/

namespace Sys2Proof.Machine

@[simp] theorem beBytes_length (n v : Nat) : (beBytes n v).length = n := by
  induction n with
  | zero => rfl
  | succ n ih => simp [beBytes, ih]

theorem beValue_cons (b : Byte) (l : List Byte) :
    beValue (b :: l) = b.toNat * 256 ^ l.length + beValue l := by
  have step : ∀ (l : List Byte) (x : Nat), l.foldl (fun acc b => acc * 256 + b.toNat) x =
      x * 256 ^ l.length + l.foldl (fun acc b => acc * 256 + b.toNat) 0 := by
    intro l
    induction l with
    | nil => simp
    | cons y l ih =>
      intro x
      rw [List.foldl_cons, ih, List.foldl_cons, ih (0 * 256 + y.toNat), List.length_cons, Nat.pow_succ]
      ring
  simp only [beValue, List.foldl_cons]
  rw [step]
  simp

theorem beValue_lt (l : List Byte) : beValue l < 256 ^ l.length := by
  induction l with
  | nil => simp [beValue]
  | cons b l ih =>
    rw [beValue_cons, List.length_cons, Nat.pow_succ]
    have := b.isLt
    nlinarith

theorem beBytes_add (n a v : Nat) : beBytes n (a * 256 ^ n + v) = beBytes n v := by
  induction n generalizing a v with
  | zero => rfl
  | succ n ih =>
    have e : a * 256 ^ (n + 1) + v = a * 256 * 256 ^ n + v := by ring
    simp only [beBytes]
    rw [e, ih, Nat.mul_comm (a * 256), Nat.mul_add_div (by positivity)]
    congr 1
    apply BitVec.eq_of_toNat_eq; simp

/-- Bytes are the field that they hold. -/
theorem beBytes_beValue (l : List Byte) : beBytes l.length (beValue l) = l := by
  induction l with
  | nil => rfl
  | cons b l ih =>
    rw [List.length_cons, beValue_cons]
    simp only [beBytes]
    rw [beBytes_add, ih, Nat.mul_comm, Nat.mul_add_div (by positivity), Nat.div_eq_of_lt (beValue_lt l)]
    simp

/-- A field holds the value that was written, modulo its size. -/
theorem beValue_beBytes (n v : Nat) : beValue (beBytes n v) = v % 256 ^ n := by
  induction n with
  | zero => simp [beBytes, beValue, Nat.mod_one]
  | succ n ih =>
    simp only [beBytes]
    rw [beValue_cons, ih, beBytes_length, Nat.pow_succ, Nat.mod_mul]
    simp only [BitVec.toNat_ofNat]
    ring

theorem slice_length {bytes : List Byte} {offset size : Nat} (h : offset + size ≤ bytes.length) :
    (slice bytes offset size).length = size := by
  simp [slice]; omega

theorem field_lt {bytes : List Byte} {offset size : Nat} (h : offset + size ≤ bytes.length) :
    field bytes offset size < 256 ^ size := by
  have := beValue_lt (slice bytes offset size)
  rwa [slice_length h] at this

/-- The bytes of a field write back as they were read. -/
theorem beBytes_field {bytes : List Byte} {offset size : Nat} (h : offset + size ≤ bytes.length) :
    beBytes size (field bytes offset size) = slice bytes offset size := by
  have := beBytes_beValue (slice bytes offset size)
  rwa [slice_length h] at this

/-- A field between what stands before it and behind it. -/
theorem field_between {before value after : List Byte} {offset size : Nat} (hb : before.length = offset)
    (hv : value.length = size) : field (before ++ value ++ after) offset size = beValue value := by
  subst hb hv
  simp [field, slice]

end Sys2Proof.Machine
end

