-- ==== Sys2Proof/Laws/State.lean ====
section
/-! SUPPORT. What reading a fixed table or one field of the state gives after an update: one lemma per field
per update, so that no later proof unfolds one. -/

namespace Sys2Proof

/-! ## Fixed tables -/

@[simp] theorem readAt_writeAt_same {α : Type} {n : Nat} (t : Vector α n) (i : Fin n) (x : α) :
    readAt (writeAt t i x) i = x := by
  simp [readAt, writeAt]

theorem readAt_writeAt_ne {α : Type} {n : Nat} (t : Vector α n) {i j : Fin n} (x : α) (h : i ≠ j) :
    readAt (writeAt t i x) j = readAt t j := by
  have : i.val ≠ j.val := fun e => h (Fin.ext e)
  simp [readAt, writeAt, this]

theorem readAt_writeAt {α : Type} {n : Nat} (t : Vector α n) (i j : Fin n) (x : α) :
    readAt (writeAt t i x) j = if i = j then x else readAt t j := by
  split
  · next h => subst h; simp
  · next h => exact readAt_writeAt_ne t x h

@[simp] theorem readAt_tabulate {α : Type} {n : Nat} (g : Fin n → α) (i : Fin n) :
    readAt (tabulate g) i = g i := by
  simp [readAt, tabulate]

@[simp] theorem readAt_replicate {α : Type} {n : Nat} (x : α) (i : Fin n) :
    readAt (Vector.replicate n x) i = x := by
  simp [readAt]

theorem table_ext {α : Type} {n : Nat} {t u : Vector α n} (h : ∀ i, readAt t i = readAt u i) : t = u := by
  ext i hi
  exact h ⟨i, hi⟩

@[simp] theorem writeAt_readAt {α : Type} {n : Nat} (t : Vector α n) (i : Fin n) :
    writeAt t i (readAt t i) = t :=
  table_ext fun j => by rw [readAt_writeAt]; split <;> simp_all

@[simp] theorem writeAt_writeAt {α : Type} {n : Nat} (t : Vector α n) (i : Fin n) (x y : α) :
    writeAt (writeAt t i x) i y = writeAt t i y :=
  table_ext fun j => by simp only [readAt_writeAt]; split <;> rfl

end Sys2Proof

namespace Sys2Proof.Machine

/-! ## One block updated -/


@[simp] theorem modifyFlow_unitId (s : State) (f : FlowId) (g : Flow → Flow) :
    (s.modifyFlow f g).unitId = s.unitId := rfl
@[simp] theorem modifyFlow_flows (s : State) (f : FlowId) (g : Flow → Flow) :
    (s.modifyFlow f g).flows = writeAt s.flows f (g (s.flow f)) := rfl
@[simp] theorem modifyFlow_pool (s : State) (f : FlowId) (g : Flow → Flow) :
    (s.modifyFlow f g).pool = s.pool := rfl
@[simp] theorem modifyFlow_wire (s : State) (f : FlowId) (g : Flow → Flow) :
    (s.modifyFlow f g).wire = s.wire := rfl
@[simp] theorem modifyFlow_link (s : State) (f : FlowId) (g : Flow → Flow) :
    (s.modifyFlow f g).link = s.link := rfl
@[simp] theorem modifyFlow_part (s : State) (f : FlowId) (g : Flow → Flow) :
    (s.modifyFlow f g).part = s.part := rfl
@[simp] theorem modifyFlow_tables (s : State) (f : FlowId) (g : Flow → Flow) :
    (s.modifyFlow f g).tables = s.tables := rfl
@[simp] theorem modifyFlow_hits (s : State) (f : FlowId) (g : Flow → Flow) :
    (s.modifyFlow f g).hits = s.hits := rfl
@[simp] theorem modifyFlow_engine (s : State) (f : FlowId) (g : Flow → Flow) :
    (s.modifyFlow f g).engine = s.engine := rfl
@[simp] theorem modifyFlow_params (s : State) (f : FlowId) (g : Flow → Flow) :
    (s.modifyFlow f g).params = s.params := rfl
@[simp] theorem modifyFlow_notices (s : State) (f : FlowId) (g : Flow → Flow) :
    (s.modifyFlow f g).notices = s.notices := rfl
@[simp] theorem modifyFlow_flowCounters (s : State) (f : FlowId) (g : Flow → Flow) :
    (s.modifyFlow f g).flowCounters = s.flowCounters := rfl
@[simp] theorem modifyFlow_deviceCounters (s : State) (f : FlowId) (g : Flow → Flow) :
    (s.modifyFlow f g).deviceCounters = s.deviceCounters := rfl
@[simp] theorem modifyFlow_epochDraws (s : State) (f : FlowId) (g : Flow → Flow) :
    (s.modifyFlow f g).epochDraws = s.epochDraws := rfl
@[simp] theorem modifyFlow_pending (s : State) (f : FlowId) (g : Flow → Flow) :
    (s.modifyFlow f g).pending = s.pending := rfl
@[simp] theorem modifyFlow_profile (s : State) (f : FlowId) (g : Flow → Flow) (k : FlowId) :
    (s.modifyFlow f g).profile k = s.profile k := rfl
@[simp] theorem modifyFlow_held (s : State) (f : FlowId) (g : Flow → Flow) (k : FlowId) :
    (s.modifyFlow f g).held k = s.held k := rfl

@[simp] theorem modifyPool_unitId (s : State) (g : Pool → Pool) :
    (s.modifyPool g).unitId = s.unitId := rfl
@[simp] theorem modifyPool_flows (s : State) (g : Pool → Pool) :
    (s.modifyPool g).flows = s.flows := rfl
@[simp] theorem modifyPool_pool (s : State) (g : Pool → Pool) :
    (s.modifyPool g).pool = g s.pool := rfl
@[simp] theorem modifyPool_wire (s : State) (g : Pool → Pool) :
    (s.modifyPool g).wire = s.wire := rfl
@[simp] theorem modifyPool_link (s : State) (g : Pool → Pool) :
    (s.modifyPool g).link = s.link := rfl
@[simp] theorem modifyPool_part (s : State) (g : Pool → Pool) :
    (s.modifyPool g).part = s.part := rfl
@[simp] theorem modifyPool_tables (s : State) (g : Pool → Pool) :
    (s.modifyPool g).tables = s.tables := rfl
@[simp] theorem modifyPool_hits (s : State) (g : Pool → Pool) :
    (s.modifyPool g).hits = s.hits := rfl
@[simp] theorem modifyPool_engine (s : State) (g : Pool → Pool) :
    (s.modifyPool g).engine = s.engine := rfl
@[simp] theorem modifyPool_params (s : State) (g : Pool → Pool) :
    (s.modifyPool g).params = s.params := rfl
@[simp] theorem modifyPool_notices (s : State) (g : Pool → Pool) :
    (s.modifyPool g).notices = s.notices := rfl
@[simp] theorem modifyPool_flowCounters (s : State) (g : Pool → Pool) :
    (s.modifyPool g).flowCounters = s.flowCounters := rfl
@[simp] theorem modifyPool_deviceCounters (s : State) (g : Pool → Pool) :
    (s.modifyPool g).deviceCounters = s.deviceCounters := rfl
@[simp] theorem modifyPool_epochDraws (s : State) (g : Pool → Pool) :
    (s.modifyPool g).epochDraws = s.epochDraws := rfl
@[simp] theorem modifyPool_pending (s : State) (g : Pool → Pool) :
    (s.modifyPool g).pending = s.pending := rfl
@[simp] theorem modifyPool_flow (s : State) (g : Pool → Pool) (k : FlowId) :
    (s.modifyPool g).flow k = s.flow k := rfl
@[simp] theorem modifyPool_profile (s : State) (g : Pool → Pool) (k : FlowId) :
    (s.modifyPool g).profile k = s.profile k := rfl

@[simp] theorem modifyWire_unitId (s : State) (g : WirePort → WirePort) :
    (s.modifyWire g).unitId = s.unitId := rfl
@[simp] theorem modifyWire_flows (s : State) (g : WirePort → WirePort) :
    (s.modifyWire g).flows = s.flows := rfl
@[simp] theorem modifyWire_pool (s : State) (g : WirePort → WirePort) :
    (s.modifyWire g).pool = s.pool := rfl
@[simp] theorem modifyWire_wire (s : State) (g : WirePort → WirePort) :
    (s.modifyWire g).wire = g s.wire := rfl
@[simp] theorem modifyWire_link (s : State) (g : WirePort → WirePort) :
    (s.modifyWire g).link = s.link := rfl
@[simp] theorem modifyWire_part (s : State) (g : WirePort → WirePort) :
    (s.modifyWire g).part = s.part := rfl
@[simp] theorem modifyWire_tables (s : State) (g : WirePort → WirePort) :
    (s.modifyWire g).tables = s.tables := rfl
@[simp] theorem modifyWire_hits (s : State) (g : WirePort → WirePort) :
    (s.modifyWire g).hits = s.hits := rfl
@[simp] theorem modifyWire_engine (s : State) (g : WirePort → WirePort) :
    (s.modifyWire g).engine = s.engine := rfl
@[simp] theorem modifyWire_params (s : State) (g : WirePort → WirePort) :
    (s.modifyWire g).params = s.params := rfl
@[simp] theorem modifyWire_notices (s : State) (g : WirePort → WirePort) :
    (s.modifyWire g).notices = s.notices := rfl
@[simp] theorem modifyWire_flowCounters (s : State) (g : WirePort → WirePort) :
    (s.modifyWire g).flowCounters = s.flowCounters := rfl
@[simp] theorem modifyWire_deviceCounters (s : State) (g : WirePort → WirePort) :
    (s.modifyWire g).deviceCounters = s.deviceCounters := rfl
@[simp] theorem modifyWire_epochDraws (s : State) (g : WirePort → WirePort) :
    (s.modifyWire g).epochDraws = s.epochDraws := rfl
@[simp] theorem modifyWire_pending (s : State) (g : WirePort → WirePort) :
    (s.modifyWire g).pending = s.pending := rfl
@[simp] theorem modifyWire_flow (s : State) (g : WirePort → WirePort) (k : FlowId) :
    (s.modifyWire g).flow k = s.flow k := rfl
@[simp] theorem modifyWire_profile (s : State) (g : WirePort → WirePort) (k : FlowId) :
    (s.modifyWire g).profile k = s.profile k := rfl
@[simp] theorem modifyWire_held (s : State) (g : WirePort → WirePort) (k : FlowId) :
    (s.modifyWire g).held k = s.held k := rfl

@[simp] theorem modifyLink_unitId (s : State) (g : LinkPort → LinkPort) :
    (s.modifyLink g).unitId = s.unitId := rfl
@[simp] theorem modifyLink_flows (s : State) (g : LinkPort → LinkPort) :
    (s.modifyLink g).flows = s.flows := rfl
@[simp] theorem modifyLink_pool (s : State) (g : LinkPort → LinkPort) :
    (s.modifyLink g).pool = s.pool := rfl
@[simp] theorem modifyLink_wire (s : State) (g : LinkPort → LinkPort) :
    (s.modifyLink g).wire = s.wire := rfl
@[simp] theorem modifyLink_link (s : State) (g : LinkPort → LinkPort) :
    (s.modifyLink g).link = g s.link := rfl
@[simp] theorem modifyLink_part (s : State) (g : LinkPort → LinkPort) :
    (s.modifyLink g).part = s.part := rfl
@[simp] theorem modifyLink_tables (s : State) (g : LinkPort → LinkPort) :
    (s.modifyLink g).tables = s.tables := rfl
@[simp] theorem modifyLink_hits (s : State) (g : LinkPort → LinkPort) :
    (s.modifyLink g).hits = s.hits := rfl
@[simp] theorem modifyLink_engine (s : State) (g : LinkPort → LinkPort) :
    (s.modifyLink g).engine = s.engine := rfl
@[simp] theorem modifyLink_params (s : State) (g : LinkPort → LinkPort) :
    (s.modifyLink g).params = s.params := rfl
@[simp] theorem modifyLink_notices (s : State) (g : LinkPort → LinkPort) :
    (s.modifyLink g).notices = s.notices := rfl
@[simp] theorem modifyLink_flowCounters (s : State) (g : LinkPort → LinkPort) :
    (s.modifyLink g).flowCounters = s.flowCounters := rfl
@[simp] theorem modifyLink_deviceCounters (s : State) (g : LinkPort → LinkPort) :
    (s.modifyLink g).deviceCounters = s.deviceCounters := rfl
@[simp] theorem modifyLink_epochDraws (s : State) (g : LinkPort → LinkPort) :
    (s.modifyLink g).epochDraws = s.epochDraws := rfl
@[simp] theorem modifyLink_pending (s : State) (g : LinkPort → LinkPort) :
    (s.modifyLink g).pending = s.pending := rfl
@[simp] theorem modifyLink_flow (s : State) (g : LinkPort → LinkPort) (k : FlowId) :
    (s.modifyLink g).flow k = s.flow k := rfl
@[simp] theorem modifyLink_profile (s : State) (g : LinkPort → LinkPort) (k : FlowId) :
    (s.modifyLink g).profile k = s.profile k := rfl
@[simp] theorem modifyLink_held (s : State) (g : LinkPort → LinkPort) (k : FlowId) :
    (s.modifyLink g).held k = s.held k := rfl

@[simp] theorem modifyPart_unitId (s : State) (g : Partnership → Partnership) :
    (s.modifyPart g).unitId = s.unitId := rfl
@[simp] theorem modifyPart_flows (s : State) (g : Partnership → Partnership) :
    (s.modifyPart g).flows = s.flows := rfl
@[simp] theorem modifyPart_pool (s : State) (g : Partnership → Partnership) :
    (s.modifyPart g).pool = s.pool := rfl
@[simp] theorem modifyPart_wire (s : State) (g : Partnership → Partnership) :
    (s.modifyPart g).wire = s.wire := rfl
@[simp] theorem modifyPart_link (s : State) (g : Partnership → Partnership) :
    (s.modifyPart g).link = s.link := rfl
@[simp] theorem modifyPart_part (s : State) (g : Partnership → Partnership) :
    (s.modifyPart g).part = g s.part := rfl
@[simp] theorem modifyPart_tables (s : State) (g : Partnership → Partnership) :
    (s.modifyPart g).tables = s.tables := rfl
@[simp] theorem modifyPart_hits (s : State) (g : Partnership → Partnership) :
    (s.modifyPart g).hits = s.hits := rfl
@[simp] theorem modifyPart_engine (s : State) (g : Partnership → Partnership) :
    (s.modifyPart g).engine = s.engine := rfl
@[simp] theorem modifyPart_params (s : State) (g : Partnership → Partnership) :
    (s.modifyPart g).params = s.params := rfl
@[simp] theorem modifyPart_notices (s : State) (g : Partnership → Partnership) :
    (s.modifyPart g).notices = s.notices := rfl
@[simp] theorem modifyPart_flowCounters (s : State) (g : Partnership → Partnership) :
    (s.modifyPart g).flowCounters = s.flowCounters := rfl
@[simp] theorem modifyPart_deviceCounters (s : State) (g : Partnership → Partnership) :
    (s.modifyPart g).deviceCounters = s.deviceCounters := rfl
@[simp] theorem modifyPart_epochDraws (s : State) (g : Partnership → Partnership) :
    (s.modifyPart g).epochDraws = s.epochDraws := rfl
@[simp] theorem modifyPart_pending (s : State) (g : Partnership → Partnership) :
    (s.modifyPart g).pending = s.pending := rfl
@[simp] theorem modifyPart_flow (s : State) (g : Partnership → Partnership) (k : FlowId) :
    (s.modifyPart g).flow k = s.flow k := rfl
@[simp] theorem modifyPart_profile (s : State) (g : Partnership → Partnership) (k : FlowId) :
    (s.modifyPart g).profile k = s.profile k := rfl
@[simp] theorem modifyPart_held (s : State) (g : Partnership → Partnership) (k : FlowId) :
    (s.modifyPart g).held k = s.held k := rfl

@[simp] theorem modifyEngine_unitId (s : State) (g : Engine → Engine) :
    (s.modifyEngine g).unitId = s.unitId := rfl
@[simp] theorem modifyEngine_flows (s : State) (g : Engine → Engine) :
    (s.modifyEngine g).flows = s.flows := rfl
@[simp] theorem modifyEngine_pool (s : State) (g : Engine → Engine) :
    (s.modifyEngine g).pool = s.pool := rfl
@[simp] theorem modifyEngine_wire (s : State) (g : Engine → Engine) :
    (s.modifyEngine g).wire = s.wire := rfl
@[simp] theorem modifyEngine_link (s : State) (g : Engine → Engine) :
    (s.modifyEngine g).link = s.link := rfl
@[simp] theorem modifyEngine_part (s : State) (g : Engine → Engine) :
    (s.modifyEngine g).part = s.part := rfl
@[simp] theorem modifyEngine_tables (s : State) (g : Engine → Engine) :
    (s.modifyEngine g).tables = s.tables := rfl
@[simp] theorem modifyEngine_hits (s : State) (g : Engine → Engine) :
    (s.modifyEngine g).hits = s.hits := rfl
@[simp] theorem modifyEngine_engine (s : State) (g : Engine → Engine) :
    (s.modifyEngine g).engine = g s.engine := rfl
@[simp] theorem modifyEngine_params (s : State) (g : Engine → Engine) :
    (s.modifyEngine g).params = s.params := rfl
@[simp] theorem modifyEngine_notices (s : State) (g : Engine → Engine) :
    (s.modifyEngine g).notices = s.notices := rfl
@[simp] theorem modifyEngine_flowCounters (s : State) (g : Engine → Engine) :
    (s.modifyEngine g).flowCounters = s.flowCounters := rfl
@[simp] theorem modifyEngine_deviceCounters (s : State) (g : Engine → Engine) :
    (s.modifyEngine g).deviceCounters = s.deviceCounters := rfl
@[simp] theorem modifyEngine_epochDraws (s : State) (g : Engine → Engine) :
    (s.modifyEngine g).epochDraws = s.epochDraws := rfl
@[simp] theorem modifyEngine_pending (s : State) (g : Engine → Engine) :
    (s.modifyEngine g).pending = s.pending := rfl
@[simp] theorem modifyEngine_flow (s : State) (g : Engine → Engine) (k : FlowId) :
    (s.modifyEngine g).flow k = s.flow k := rfl
@[simp] theorem modifyEngine_profile (s : State) (g : Engine → Engine) (k : FlowId) :
    (s.modifyEngine g).profile k = s.profile k := rfl
@[simp] theorem modifyEngine_held (s : State) (g : Engine → Engine) (k : FlowId) :
    (s.modifyEngine g).held k = s.held k := rfl

@[simp] theorem modifyNotices_unitId (s : State) (g : Notices → Notices) :
    (s.modifyNotices g).unitId = s.unitId := rfl
@[simp] theorem modifyNotices_flows (s : State) (g : Notices → Notices) :
    (s.modifyNotices g).flows = s.flows := rfl
@[simp] theorem modifyNotices_pool (s : State) (g : Notices → Notices) :
    (s.modifyNotices g).pool = s.pool := rfl
@[simp] theorem modifyNotices_wire (s : State) (g : Notices → Notices) :
    (s.modifyNotices g).wire = s.wire := rfl
@[simp] theorem modifyNotices_link (s : State) (g : Notices → Notices) :
    (s.modifyNotices g).link = s.link := rfl
@[simp] theorem modifyNotices_part (s : State) (g : Notices → Notices) :
    (s.modifyNotices g).part = s.part := rfl
@[simp] theorem modifyNotices_tables (s : State) (g : Notices → Notices) :
    (s.modifyNotices g).tables = s.tables := rfl
@[simp] theorem modifyNotices_hits (s : State) (g : Notices → Notices) :
    (s.modifyNotices g).hits = s.hits := rfl
@[simp] theorem modifyNotices_engine (s : State) (g : Notices → Notices) :
    (s.modifyNotices g).engine = s.engine := rfl
@[simp] theorem modifyNotices_params (s : State) (g : Notices → Notices) :
    (s.modifyNotices g).params = s.params := rfl
@[simp] theorem modifyNotices_notices (s : State) (g : Notices → Notices) :
    (s.modifyNotices g).notices = g s.notices := rfl
@[simp] theorem modifyNotices_flowCounters (s : State) (g : Notices → Notices) :
    (s.modifyNotices g).flowCounters = s.flowCounters := rfl
@[simp] theorem modifyNotices_deviceCounters (s : State) (g : Notices → Notices) :
    (s.modifyNotices g).deviceCounters = s.deviceCounters := rfl
@[simp] theorem modifyNotices_epochDraws (s : State) (g : Notices → Notices) :
    (s.modifyNotices g).epochDraws = s.epochDraws := rfl
@[simp] theorem modifyNotices_pending (s : State) (g : Notices → Notices) :
    (s.modifyNotices g).pending = s.pending := rfl
@[simp] theorem modifyNotices_flow (s : State) (g : Notices → Notices) (k : FlowId) :
    (s.modifyNotices g).flow k = s.flow k := rfl
@[simp] theorem modifyNotices_profile (s : State) (g : Notices → Notices) (k : FlowId) :
    (s.modifyNotices g).profile k = s.profile k := rfl
@[simp] theorem modifyNotices_held (s : State) (g : Notices → Notices) (k : FlowId) :
    (s.modifyNotices g).held k = s.held k := rfl

@[simp] theorem countFlow_unitId (s : State) (f : FlowId) (g : FlowCounters → FlowCounters) :
    (s.countFlow f g).unitId = s.unitId := rfl
@[simp] theorem countFlow_flows (s : State) (f : FlowId) (g : FlowCounters → FlowCounters) :
    (s.countFlow f g).flows = s.flows := rfl
@[simp] theorem countFlow_pool (s : State) (f : FlowId) (g : FlowCounters → FlowCounters) :
    (s.countFlow f g).pool = s.pool := rfl
@[simp] theorem countFlow_wire (s : State) (f : FlowId) (g : FlowCounters → FlowCounters) :
    (s.countFlow f g).wire = s.wire := rfl
@[simp] theorem countFlow_link (s : State) (f : FlowId) (g : FlowCounters → FlowCounters) :
    (s.countFlow f g).link = s.link := rfl
@[simp] theorem countFlow_part (s : State) (f : FlowId) (g : FlowCounters → FlowCounters) :
    (s.countFlow f g).part = s.part := rfl
@[simp] theorem countFlow_tables (s : State) (f : FlowId) (g : FlowCounters → FlowCounters) :
    (s.countFlow f g).tables = s.tables := rfl
@[simp] theorem countFlow_hits (s : State) (f : FlowId) (g : FlowCounters → FlowCounters) :
    (s.countFlow f g).hits = s.hits := rfl
@[simp] theorem countFlow_engine (s : State) (f : FlowId) (g : FlowCounters → FlowCounters) :
    (s.countFlow f g).engine = s.engine := rfl
@[simp] theorem countFlow_params (s : State) (f : FlowId) (g : FlowCounters → FlowCounters) :
    (s.countFlow f g).params = s.params := rfl
@[simp] theorem countFlow_notices (s : State) (f : FlowId) (g : FlowCounters → FlowCounters) :
    (s.countFlow f g).notices = s.notices := rfl
@[simp] theorem countFlow_flowCounters (s : State) (f : FlowId) (g : FlowCounters → FlowCounters) :
    (s.countFlow f g).flowCounters = writeAt s.flowCounters f (g (readAt s.flowCounters f)) := rfl
@[simp] theorem countFlow_deviceCounters (s : State) (f : FlowId) (g : FlowCounters → FlowCounters) :
    (s.countFlow f g).deviceCounters = s.deviceCounters := rfl
@[simp] theorem countFlow_epochDraws (s : State) (f : FlowId) (g : FlowCounters → FlowCounters) :
    (s.countFlow f g).epochDraws = s.epochDraws := rfl
@[simp] theorem countFlow_pending (s : State) (f : FlowId) (g : FlowCounters → FlowCounters) :
    (s.countFlow f g).pending = s.pending := rfl
@[simp] theorem countFlow_flow (s : State) (f : FlowId) (g : FlowCounters → FlowCounters) (k : FlowId) :
    (s.countFlow f g).flow k = s.flow k := rfl
@[simp] theorem countFlow_profile (s : State) (f : FlowId) (g : FlowCounters → FlowCounters) (k : FlowId) :
    (s.countFlow f g).profile k = s.profile k := rfl
@[simp] theorem countFlow_held (s : State) (f : FlowId) (g : FlowCounters → FlowCounters) (k : FlowId) :
    (s.countFlow f g).held k = s.held k := rfl

@[simp] theorem countDevice_unitId (s : State) (g : DeviceCounters → DeviceCounters) :
    (s.countDevice g).unitId = s.unitId := rfl
@[simp] theorem countDevice_flows (s : State) (g : DeviceCounters → DeviceCounters) :
    (s.countDevice g).flows = s.flows := rfl
@[simp] theorem countDevice_pool (s : State) (g : DeviceCounters → DeviceCounters) :
    (s.countDevice g).pool = s.pool := rfl
@[simp] theorem countDevice_wire (s : State) (g : DeviceCounters → DeviceCounters) :
    (s.countDevice g).wire = s.wire := rfl
@[simp] theorem countDevice_link (s : State) (g : DeviceCounters → DeviceCounters) :
    (s.countDevice g).link = s.link := rfl
@[simp] theorem countDevice_part (s : State) (g : DeviceCounters → DeviceCounters) :
    (s.countDevice g).part = s.part := rfl
@[simp] theorem countDevice_tables (s : State) (g : DeviceCounters → DeviceCounters) :
    (s.countDevice g).tables = s.tables := rfl
@[simp] theorem countDevice_hits (s : State) (g : DeviceCounters → DeviceCounters) :
    (s.countDevice g).hits = s.hits := rfl
@[simp] theorem countDevice_engine (s : State) (g : DeviceCounters → DeviceCounters) :
    (s.countDevice g).engine = s.engine := rfl
@[simp] theorem countDevice_params (s : State) (g : DeviceCounters → DeviceCounters) :
    (s.countDevice g).params = s.params := rfl
@[simp] theorem countDevice_notices (s : State) (g : DeviceCounters → DeviceCounters) :
    (s.countDevice g).notices = s.notices := rfl
@[simp] theorem countDevice_flowCounters (s : State) (g : DeviceCounters → DeviceCounters) :
    (s.countDevice g).flowCounters = s.flowCounters := rfl
@[simp] theorem countDevice_deviceCounters (s : State) (g : DeviceCounters → DeviceCounters) :
    (s.countDevice g).deviceCounters = g s.deviceCounters := rfl
@[simp] theorem countDevice_epochDraws (s : State) (g : DeviceCounters → DeviceCounters) :
    (s.countDevice g).epochDraws = s.epochDraws := rfl
@[simp] theorem countDevice_pending (s : State) (g : DeviceCounters → DeviceCounters) :
    (s.countDevice g).pending = s.pending := rfl
@[simp] theorem countDevice_flow (s : State) (g : DeviceCounters → DeviceCounters) (k : FlowId) :
    (s.countDevice g).flow k = s.flow k := rfl
@[simp] theorem countDevice_profile (s : State) (g : DeviceCounters → DeviceCounters) (k : FlowId) :
    (s.countDevice g).profile k = s.profile k := rfl
@[simp] theorem countDevice_held (s : State) (g : DeviceCounters → DeviceCounters) (k : FlowId) :
    (s.countDevice g).held k = s.held k := rfl

@[simp] theorem withPending_unitId (s : State) (cs : List Instr) :
    (s.withPending cs).unitId = s.unitId := rfl
@[simp] theorem withPending_flows (s : State) (cs : List Instr) :
    (s.withPending cs).flows = s.flows := rfl
@[simp] theorem withPending_pool (s : State) (cs : List Instr) :
    (s.withPending cs).pool = s.pool := rfl
@[simp] theorem withPending_wire (s : State) (cs : List Instr) :
    (s.withPending cs).wire = s.wire := rfl
@[simp] theorem withPending_link (s : State) (cs : List Instr) :
    (s.withPending cs).link = s.link := rfl
@[simp] theorem withPending_part (s : State) (cs : List Instr) :
    (s.withPending cs).part = s.part := rfl
@[simp] theorem withPending_tables (s : State) (cs : List Instr) :
    (s.withPending cs).tables = s.tables := rfl
@[simp] theorem withPending_hits (s : State) (cs : List Instr) :
    (s.withPending cs).hits = s.hits := rfl
@[simp] theorem withPending_engine (s : State) (cs : List Instr) :
    (s.withPending cs).engine = s.engine := rfl
@[simp] theorem withPending_params (s : State) (cs : List Instr) :
    (s.withPending cs).params = s.params := rfl
@[simp] theorem withPending_notices (s : State) (cs : List Instr) :
    (s.withPending cs).notices = s.notices := rfl
@[simp] theorem withPending_flowCounters (s : State) (cs : List Instr) :
    (s.withPending cs).flowCounters = s.flowCounters := rfl
@[simp] theorem withPending_deviceCounters (s : State) (cs : List Instr) :
    (s.withPending cs).deviceCounters = s.deviceCounters := rfl
@[simp] theorem withPending_epochDraws (s : State) (cs : List Instr) :
    (s.withPending cs).epochDraws = s.epochDraws := rfl
@[simp] theorem withPending_pending (s : State) (cs : List Instr) :
    (s.withPending cs).pending = cs := rfl
@[simp] theorem withPending_flow (s : State) (cs : List Instr) (k : FlowId) :
    (s.withPending cs).flow k = s.flow k := rfl
@[simp] theorem withPending_profile (s : State) (cs : List Instr) (k : FlowId) :
    (s.withPending cs).profile k = s.profile k := rfl
@[simp] theorem withPending_held (s : State) (cs : List Instr) (k : FlowId) :
    (s.withPending cs).held k = s.held k := rfl

/-! ## One flow updated -/

@[simp] theorem flow_modifyFlow_same (s : State) (f : FlowId) (g : Flow → Flow) :
    (s.modifyFlow f g).flow f = g (s.flow f) := by
  simp [State.flow]

@[simp] theorem flow_modifyFlow_ne (s : State) {f k : FlowId} (g : Flow → Flow) (h : f ≠ k) :
    (s.modifyFlow f g).flow k = s.flow k := by
  simp [State.flow, readAt_writeAt_ne _ _ h]

theorem flow_modifyFlow (s : State) (f k : FlowId) (g : Flow → Flow) :
    (s.modifyFlow f g).flow k = if f = k then g (s.flow f) else s.flow k := by
  simp [State.flow, readAt_writeAt]

@[simp] theorem modifyFlow_modifyFlow (s : State) (f : FlowId) (g h : Flow → Flow) :
    (s.modifyFlow f g).modifyFlow f h = s.modifyFlow f (fun fl => h (g fl)) := by
  simp [State.modifyFlow, State.flow]

theorem flows_ext {s t : State} (h : ∀ f, t.flow f = s.flow f) : t.flows = s.flows := table_ext h

/-! ## The waiting queue and one step -/

@[simp] theorem step_withPending_nil (s : State) : step (s.withPending []) = .next (s.withPending []).tick := rfl

theorem step_withPending_cons (s : State) (c : Instr) (rest : List Instr) :
    step (s.withPending (c :: rest)) = exec c (s.withPending rest) := rfl

theorem step_of_pending {s : State} {c : Instr} {rest : List Instr} (h : s.pending = c :: rest) :
    step s = exec c (s.withPending rest) := by
  simp only [step, h]

theorem step_of_empty {s : State} (h : s.pending = []) : step s = .next s.tick := by
  simp only [step, h]

end Sys2Proof.Machine
end

