-- ==== Sys2Proof/Laws/Ops.lean ====
section
/-! SUPPORT. What each shared operation of Machine/Ops.lean can do, said once: its result as an update of the
state it is given, so that every field it does not name is unchanged by rfl. -/

namespace Sys2Proof.Machine

/-! ## Notices (R170 to R173) -/

theorem raiseCause_eq (s : State) (c : NoticeContent) :
    s.raiseCause c = { s with notices := s.notices.take c s.engine.executing } := rfl

/-- A cause changes the notice queue and the overrun flag only. -/
theorem Notices.take_masks (n : Notices) (c : NoticeContent) (m : Option RequestMark) :
    (n.take c m).flowStateEnabled = n.flowStateEnabled ∧
      (n.take c m).linkStateEnabled = n.linkStateEnabled ∧
      (n.take c m).poolLowEnabled = n.poolLowEnabled := by
  unfold Notices.take
  split
  · split
    · exact ⟨rfl, rfl, rfl⟩
    · split <;> exact ⟨rfl, rfl, rfl⟩
  · exact ⟨rfl, rfl, rfl⟩

theorem foldQueue_length {c : NoticeContent} {m : Option RequestMark} {q q' : List Notice}
    (h : foldQueue c m q = some q') : q'.length = q.length := by
  induction q generalizing q' with
  | nil => simp [foldQueue] at h
  | cons n rest ih =>
    simp only [foldQueue] at h
    split at h
    · cases h; rfl
    · obtain ⟨r, hr, rfl⟩ := Option.map_eq_some_iff.mp h
      simp [ih hr]

/-- R170 step 3, R172: the notice queue never grows past 32. -/
theorem Notices.take_length {n : Notices} (h : n.queue.length ≤ 32) (c : NoticeContent)
    (m : Option RequestMark) : (n.take c m).queue.length ≤ 32 := by
  unfold Notices.take
  split
  · split
    · next q hq => simpa [foldQueue_length hq] using h
    · split
      · simp; omega
      · exact h
  · exact h

theorem complete_eq (s : State) (d : Option Deferred) (o : DeferredCode → Completion × Option Detail) :
    ∃ n, s.complete d o = { s with notices := n } := by
  cases d
  · exact ⟨s.notices, rfl⟩
  · exact ⟨_, rfl⟩

/-! ## The pool (section 5) -/

/-- R100: the low-pool test changes the armed mark and raises at most one cause. -/
theorem lowPoolTest_eq (s : State) (before : Nat) :
    ∃ armed n, s.lowPoolTest before =
      { s with pool := { s.pool with lowArmed := armed }, notices := n } := by
  unfold State.lowPoolTest
  simp only
  split
  · exact ⟨s.pool.lowArmed, s.notices, rfl⟩
  · split
    · split
      · exact ⟨false, _, rfl⟩
      · exact ⟨s.pool.lowArmed, s.notices, rfl⟩
    · split
      · exact ⟨true, s.notices, rfl⟩
      · exact ⟨s.pool.lowArmed, s.notices, rfl⟩

/-- R96: a granted request had a held count below the cap and a buffer within the reservation or shared
free; it moves one buffer to the flow's account. -/
theorem grantFlow_some {s t : State} {f : FlowId} (h : s.grantFlow f = some t) :
    s.pool.grantsFlow f (s.profile f).cap = true ∧
      ∃ armed n, t = { s with pool := { s.pool.chargeFlow f with lowArmed := armed }, notices := n } := by
  unfold State.grantFlow at h
  split at h
  · next hg =>
    obtain ⟨a, n, e⟩ := lowPoolTest_eq (s.modifyPool (·.chargeFlow f)) s.pool.sharedFree
    exact ⟨hg, a, n, by rw [← Option.some.inj h, e]; rfl⟩
  · cases h

theorem grantFlow_isSome (s : State) (f : FlowId) :
    (s.grantFlow f).isSome = s.pool.grantsFlow f (s.profile f).cap := by
  unfold State.grantFlow
  split <;> simp_all

/-- R97: a granted request for the bulk account. -/
theorem grantBulk_some {s t : State} (h : s.grantBulk = some t) :
    s.pool.grantsBulk s.params.bulkCap = true ∧
      ∃ armed n, t = { s with
        pool := { s.pool with free := s.pool.free - 1, bulkHeld := s.pool.bulkHeld + 1, lowArmed := armed }
        notices := n } := by
  unfold State.grantBulk at h
  split at h
  · next hg =>
    obtain ⟨a, n, e⟩ := lowPoolTest_eq
      (s.modifyPool fun p => { p with free := p.free - 1, bulkHeld := p.bulkHeld + 1 }) s.pool.sharedFree
    exact ⟨hg, a, n, by rw [← Option.some.inj h, e]; rfl⟩
  · cases h

/-- R98: a release of a flow's buffers. -/
theorem releaseFlow_eq (s : State) (f : FlowId) (k : Nat) :
    ∃ armed n, s.releaseFlow f k =
      { s with pool := { s.pool.returnFlow f k with lowArmed := armed }, notices := n } := by
  obtain ⟨a, n, e⟩ := lowPoolTest_eq (s.modifyPool (·.returnFlow f k)) s.pool.sharedFree
  exact ⟨a, n, by rw [State.releaseFlow, e]; rfl⟩

/-- R98: a release of a bulk buffer. -/
theorem releaseBulk_eq (s : State) :
    ∃ armed n, s.releaseBulk = { s with
      pool := { s.pool with
        free := s.pool.free + min 1 s.pool.bulkHeld, bulkHeld := s.pool.bulkHeld - 1, lowArmed := armed }
      notices := n } := by
  obtain ⟨a, n, e⟩ := lowPoolTest_eq
    (s.modifyPool fun p => { p with free := p.free + min 1 p.bulkHeld, bulkHeld := p.bulkHeld - 1 })
    s.pool.sharedFree
  exact ⟨a, n, by rw [State.releaseBulk, e]; rfl⟩

/-- R94: a reservation is made only when shared free is at least the reserve. -/
theorem reserveFlow_some {s t : State} {f : FlowId} (h : s.reserveFlow f = some t) :
    (s.profile f).reserve ≤ s.pool.sharedFree ∧
      ∃ armed n, t = { s with
        pool := { s.pool with
          reservation := writeAt s.pool.reservation f (s.profile f).reserve, lowArmed := armed }
        notices := n } := by
  unfold State.reserveFlow at h
  split at h
  · next hg =>
    obtain ⟨a, n, e⟩ := lowPoolTest_eq (s.modifyPool fun p =>
      { p with reservation := writeAt p.reservation f (s.profile f).reserve }) s.pool.sharedFree
    exact ⟨hg, a, n, by rw [← Option.some.inj h, e]; rfl⟩
  · cases h

/-- R51, R95: the collections' buffers return and the reservation becomes 0. -/
theorem emptyAccount_eq (s : State) (f : FlowId) (k : Nat) :
    ∃ armed n, s.emptyAccount f k = { s with
      pool := { s.pool.returnFlow f k with
        reservation := writeAt s.pool.reservation f 0, lowArmed := armed }
      notices := n } := by
  obtain ⟨a, n, e⟩ := lowPoolTest_eq (s.modifyPool fun p =>
    { p.returnFlow f k with reservation := writeAt p.reservation f 0 }) s.pool.sharedFree
  exact ⟨a, n, by rw [State.emptyAccount, e]; rfl⟩

/-! ## Lifecycle (section 3) -/

theorem makePending_eq (s : State) (f : FlowId) (b : LifecycleBlock) :
    s.makePending f b = { s with
      flows := writeAt s.flows f { s.flow f with pendingBlock := some b }
      link := { s.link with lifecycleOrder := s.link.lifecycleOrder.filter (· ≠ f) ++ [f] } } := rfl

theorem clearPending_eq (s : State) (f : FlowId) :
    s.clearPending f = { s with
      flows := writeAt s.flows f { s.flow f with pendingBlock := none }
      link := { s.link with lifecycleOrder := s.link.lifecycleOrder.filter (· ≠ f) } } := rfl

theorem changeFlowState_eq (s : State) (f : FlowId) (new : FlowState) (cause : FlowCause) :
    s.changeFlowState f new cause = { s with
      flows := writeAt s.flows f { s.flow f with state := new }
      notices := s.notices.take (.flowState f (s.flow f).state new cause) s.engine.executing } := rfl

/-- R51: what an entry to CLOSED or FAILED changes: the flow's context, its account, its place in the
lifecycle order, and the notices. -/
theorem endFlow_eq (s : State) (f : FlowId) (new : FlowState) (cause : FlowCause)
    (failure : Option FailureCause) (keepBlock : Bool)
    (outcome : DeferredCode → Completion × Option Detail) :
    ∃ armed n, s.endFlow f new cause failure keepBlock outcome = { s with
      flows := writeAt s.flows f ((s.flow f).ended new failure keepBlock)
      pool := { s.pool.returnFlow f (s.flow f).collectedBuffers with
        reservation := writeAt s.pool.reservation f 0, lowArmed := armed }
      link := if keepBlock then s.link
        else { s.link with lifecycleOrder := s.link.lifecycleOrder.filter (· ≠ f) }
      notices := n } := by
  obtain ⟨a, n, e⟩ := emptyAccount_eq s f (s.flow f).collectedBuffers
  unfold State.endFlow
  simp only [e]
  cases keepBlock
  · obtain ⟨n', e'⟩ := complete_eq _ (s.flow f).deferred outcome
    refine ⟨a, ?_, ?_⟩
    rotate_left
    · simp only [Bool.false_eq_true, ↓reduceIte]
      rw [e', raiseCause_eq]
      simp [State.clearPending, State.modifyLink, State.modifyFlow, State.flow, Flow.ended]
      rfl
  · obtain ⟨n', e'⟩ := complete_eq _ (s.flow f).deferred outcome
    refine ⟨a, ?_, ?_⟩
    rotate_left
    · simp only [↓reduceIte]
      rw [e', raiseCause_eq]
      simp [State.modifyFlow, State.flow, Flow.ended]
      rfl

/-! ## A happening at every flow (3.7) -/

/-- A property that each flow's happening keeps holds after all of them. -/
theorem eachFlow_keeps {P : State → Prop} {g : State → FlowId → State} (h : ∀ s f, P s → P (g s f))
    {s : State} (hs : P s) : P (s.eachFlow g) := by
  unfold State.eachFlow
  generalize List.finRange 64 = l
  induction l generalizing s with
  | nil => exact hs
  | cons f rest ih => exact ih (h s f hs)

/-- A field that no flow's happening changes is unchanged after all of them. -/
theorem eachFlow_same {α : Type} (r : State → α) {g : State → FlowId → State}
    (h : ∀ s f, r (g s f) = r s) (s : State) : r (s.eachFlow g) = r s :=
  eachFlow_keeps (P := fun t => r t = r s) (fun t f ht => (h t f).trans ht) rfl

/-- A happening that changes at each flow that flow's context only, by a rule of the context, has changed
each flow's context by that rule. -/
theorem eachFlow_flow {g : State → FlowId → State} {rule : FlowId → Flow → Flow}
    (same : ∀ s f, (g s f).flow f = rule f (s.flow f))
    (other : ∀ s f k, f ≠ k → (g s f).flow k = s.flow k) (s : State) (k : FlowId) :
    (s.eachFlow g).flow k = rule k (s.flow k) := by
  have key : ∀ (l : List FlowId) (t : State), l.Nodup →
      (l.foldl g t).flow k = if k ∈ l then rule k (t.flow k) else t.flow k := by
    intro l
    induction l with
    | nil => intro t _; simp
    | cons f rest ih =>
      intro t hl
      rw [List.nodup_cons] at hl
      simp only [List.foldl_cons, ih _ hl.2]
      by_cases hk : f = k
      · subst hk; simp [hl.1, same]
      · simp [other t f k hk, Ne.symm hk]
  simpa [State.eachFlow] using key (List.finRange 64) s (List.nodup_finRange 64)

/-! ## The wire egress (R145) -/

/-- R145: taking a frame changes the class queues and the transmitter only. -/
theorem takeClass_keeps (w : WirePort) (l : List PortClass) :
    (w.takeClass l).managementEgress = w.managementEgress ∧ (w.takeClass l).linkUp = w.linkUp := by
  induction l with
  | nil => exact ⟨rfl, rfl⟩
  | cons c rest ih =>
    unfold WirePort.takeClass
    split
    · exact ⟨rfl, rfl⟩
    · exact ih

theorem take_keeps (w : WirePort) :
    w.take.managementEgress = w.managementEgress ∧ w.take.linkUp = w.linkUp := by
  unfold WirePort.take
  split
  · exact ⟨rfl, rfl⟩
  · split
    · split
      · exact ⟨rfl, rfl⟩
      · exact takeClass_keeps w _
    · exact ⟨rfl, rfl⟩

theorem take_managementEgress (w : WirePort) : w.take.managementEgress = w.managementEgress :=
  (take_keeps w).1

/-- A transmitter that is sending takes nothing. -/
theorem take_of_sending {w : WirePort} {o : WireOwner} {b : List Byte} (h : w.transmitter = .sending o b) :
    w.take = w := by
  simp [WirePort.take, h]

/-- With the wired link down nothing is taken. -/
theorem take_of_down {w : WirePort} (h : w.linkUp = false) : w.take = w := by
  unfold WirePort.take
  split
  · rfl
  · simp [h]

/-! ## The reply paths and the release of notices (R152, R174) -/

/-- R152: a placed frame joins its own path and changes nothing else. -/
theorem placeReply_eq (s : State) (origin : Origin) (item : ReplyItem) :
    ∃ w replies, s.placeReply origin item =
      { s with wire := w, engine := { s.engine with linkReply := replies } } ∧
      w.linkUp = s.wire.linkUp ∧
      w.managementEgress = s.wire.managementEgress ++ (if origin = .wire then [item] else []) ∧
      replies = s.engine.linkReply ++ (if origin = .link ∧ s.part.state ≠ .silent then [item] else []) := by
  cases origin
  · exact ⟨_, s.engine.linkReply, rfl, (take_keeps _).2, (take_keeps _).1, by simp⟩
  · unfold State.placeReply
    by_cases h : s.part.state = .silent
    · exact ⟨s.wire, s.engine.linkReply, by simp [h], rfl, by simp, by simp [h]⟩
    · exact ⟨s.wire, _, by simp [h]; rfl, rfl, by simp, by simp [h]⟩

/-- R174: a release happens only with room below 4 or 2 in the path; it takes one unmarked notice from the
queue and places one frame. -/
theorem releaseNotice_some {s t : State} (h : s.releaseNotice = some t) :
    ∃ manager origin lease remaining n w replies,
      s.engine.binding = .bound manager origin lease remaining ∧ s.pathRoom 4 2 origin = true ∧
      s.notices.queue.find? (·.held.isNone) = some n ∧
      t = { s with
        notices := { s.notices with
          queue := s.notices.queue.eraseP (·.held.isNone), overrun := false }
        wire := w
        engine := { s.engine with linkReply := replies } } ∧
      w.linkUp = s.wire.linkUp ∧
      w.managementEgress = s.wire.managementEgress ++
        (if origin = .wire then [⟨s.noticeFrame n manager, false⟩] else []) ∧
      replies = s.engine.linkReply ++
        (if origin = .link ∧ s.part.state ≠ .silent then [⟨s.noticeFrame n manager, false⟩] else []) := by
  unfold State.releaseNotice at h
  split at h
  · cases h
  · next manager origin lease remaining hb =>
    split at h
    · next hr =>
      split at h
      · cases h
      · next n hn =>
        obtain ⟨w, replies, e, h1, h2, h3⟩ := placeReply_eq
          (s.modifyNotices fun ns =>
            { ns with queue := ns.queue.eraseP (·.held.isNone), overrun := false })
          origin ⟨s.noticeFrame n manager, false⟩
        refine ⟨manager, origin, lease, remaining, n, w, replies, hb, hr, hn, ?_, h1, h2, h3⟩
        rw [← Option.some.inj h, e]
        rfl
    · cases h

/-- A property that one release keeps holds after the releases of R174. -/
theorem releaseNotices_keeps {P : State → Prop} (h : ∀ s t, s.releaseNotice = some t → P s → P t)
    {s : State} (hs : P s) : P s.releaseNotices := by
  have key : ∀ n s, P s → P (s.releaseUpTo n) := by
    intro n
    induction n with
    | zero => intro s hs; exact hs
    | succ n ih =>
      intro s hs
      unfold State.releaseUpTo
      split
      · exact hs
      · next t ht => exact ih t (h s t ht hs)
  exact key _ s hs

/-- R174: what the releases of one happening can change. -/
theorem releaseNotices_eq (s : State) :
    ∃ ns w replies, s.releaseNotices = { s with
      notices := ns, wire := w, engine := { s.engine with linkReply := replies } } := by
  refine releaseNotices_keeps
    (P := fun t => ∃ ns w replies, t = { s with
      notices := ns, wire := w, engine := { s.engine with linkReply := replies } }) ?_ ⟨_, _, _, rfl⟩
  rintro _ t ht ⟨ns, w, replies, rfl⟩
  obtain ⟨_, _, _, _, _, w', r', -, -, -, rfl, -, -, -⟩ := releaseNotice_some ht
  exact ⟨_, w', r', rfl⟩

/-- R133: a selection changes the grant in transit only. -/
theorem select_eq (s : State) : ∃ g, s.select = { s with link := { s.link with grant := g } } := by
  unfold State.select
  split
  · exact ⟨_, rfl⟩
  · exact ⟨s.link.grant, rfl⟩

/-- The end of a happening changes the notices, the reply paths, the wire transmitter and the grant in
transit, and nothing else. -/
theorem finish_eq (s : State) :
    ∃ ns w replies g, s.finish = { s with
      notices := ns
      wire := w
      engine := { s.engine with linkReply := replies }
      link := { s.link with grant := g } } := by
  obtain ⟨ns, w, r, e⟩ := releaseNotices_eq s
  obtain ⟨g, e'⟩ := select_eq s.releaseNotices
  exact ⟨ns, w, r, g, by rw [State.finish, e', e]⟩

/-! ## The link transmitter (R140) -/

theorem restartKeepalive_eq (s : State) :
    s.restartKeepalive = { s with
      part := if s.part.state = .partnered then
        { s.part with keepaliveTimer := .running s.params.keepaliveInterval } else s.part } := by
  unfold State.restartKeepalive
  split <;> rfl

/-- R140: what presenting a block changes. -/
theorem present_eq (s : State) (b : LinkBlock) (owner : LinkOwner) :
    s.present b owner = { s with
      link := { s.link with transmitter := .sending owner (formBlock b), slotSignal := false }
      part := if s.part.state = .partnered then
        { s.part with keepaliveTimer := .running s.params.keepaliveInterval } else s.part
      deviceCounters := { s.deviceCounters with
        blocksTransmitted := s.deviceCounters.blocksTransmitted + 1 } } := by
  rw [State.present, restartKeepalive_eq]
  rfl

/-! ## The partnership (section 4) -/

theorem changeLinkState_eq (s : State) (new : LinkState) (cause : LinkCause) :
    s.changeLinkState new cause = { s with
      part := { s.part with state := new }
      notices := s.notices.take (.linkState s.part.state new cause) s.engine.executing } := rfl

theorem completeJoin_eq (s : State) (o : Completion) :
    ∃ n, s.completeJoin o = { s with part := { s.part with deferredJoin := none }, notices := n } := by
  unfold State.completeJoin
  split
  · next h => exact ⟨s.notices, by rw [← h]⟩
  · exact ⟨_, rfl⟩

theorem ifAccepted_of_accepts {s : State} {epoch : Epoch} (h : s.accepts epoch = true)
    (d : State → State) : s.ifAccepted epoch d = d s.restartSilence := by
  simp [State.ifAccepted, h]

theorem ifAccepted_of_stale {s : State} {epoch : Epoch} (h : s.accepts epoch = false)
    (d : State → State) : s.ifAccepted epoch d = s.countStale := by
  simp [State.ifAccepted, h]

/-! ## The execution of a request (R156, R157) -/

/-- R156: a request is taken only in READY, from the head of the queue, with room for its response. -/
theorem headRequest_some {s : State} {r : Request} (h : s.headRequest = some r) :
    (∃ rest, s.engine.requests = r :: rest) ∧ s.engine.state = .ready ∧
      s.pathRoom 8 4 r.origin = true := by
  unfold State.headRequest at h
  split at h
  · cases h
  · next r' rest he =>
    split at h
    · next hc => cases h; exact ⟨⟨rest, he⟩, hc.1, hc.2⟩
    · cases h

/-- A command that names a request executes it, when it is the one at the head. -/
theorem execute_of_head {s : State} {r : Request} {named : Byte → Bool}
    {work : Request → State → Answer × State} (h : s.headRequest = some r) (hn : named r.code = true) :
    s.execute named work = .next ((s.begin r).executeRequest r work).finish := by
  simp [State.execute, h, hn]

/-- Otherwise it changes nothing. -/
theorem execute_of_other {s : State} {named : Byte → Bool} {work : Request → State → Answer × State}
    (h : ∀ r, s.headRequest = some r → named r.code = false) : s.execute named work = .next s := by
  unfold State.execute
  split
  · rfl
  · next r hr => simp [h r hr]

/-- R156: a request whose source may still execute it does its work and is answered. -/
theorem executeRequest_bound {s : State} {r : Request} (h : s.lacksBinding r.source r.code = false)
    (work : Request → State → Answer × State) :
    s.executeRequest r work = (work r s).2.answerRequest r (work r s).1 := by
  simp [State.executeRequest, h]

theorem executeRequest_unbound {s : State} {r : Request} (h : s.lacksBinding r.source r.code = true)
    (work : Request → State → Answer × State) : s.executeRequest r work = s.refuseUnbound r := by
  simp [State.executeRequest, h]

end Sys2Proof.Machine
end

