-- ==== Sys2Proof/Laws/Receiver.lean ====
section
/-! SUPPORT. What the receiver half's operations do, said once: the in-order run, the insertion of a member, the
delivery of frames, and the low-pool test in the terms of Safety.lean. -/

namespace Sys2Proof.Machine

/-! ## The low-pool test (R100) -/

/-- R100: the low-pool test after a change of the pool that leaves the armed mark to it. -/
theorem lowPoolTest_tested (s : State) (p : Pool) (ha : p.lowArmed = s.pool.lowArmed)
    (he : s.engine.executing = none) :
    ∃ armed n, ({ s with pool := p } : State).lowPoolTest s.pool.sharedFree =
        { s with pool := { p with lowArmed := armed }, notices := n } ∧
      s.LowPoolTested { p with lowArmed := armed } n := by
  have hs : ∀ b, ({ p with lowArmed := b } : Pool).sharedFree = p.sharedFree := fun _ => rfl
  unfold State.lowPoolTest
  simp only [State.modifyPool, State.raiseCause, State.modifyNotices, he]
  split
  · next h =>
    refine ⟨s.pool.lowArmed, s.notices, by rw [← ha], ⟨fun _ => ⟨rfl, rfl⟩, ?_, ?_, ?_⟩⟩ <;>
      exact fun h' => absurd ((hs _).trans h) h'
  · next h =>
    rw [ha]
    split
    · next h2 =>
      split
      · next h3 =>
        refine ⟨false, _, rfl, ⟨fun h' => absurd ((hs _).symm.trans h') h, fun _ _ _ => ⟨rfl, rfl⟩,
          fun _ _ h' => ?_, fun _ h' => by rw [h2] at h'; cases h'⟩⟩
        rw [hs] at h'; omega
      · next h3 =>
        refine ⟨true, s.notices, by rw [← h2, ← ha], ⟨fun h' => absurd ((hs _).symm.trans h') h,
          fun _ _ h' => ?_, fun _ _ _ => ⟨rfl, rfl⟩, fun _ h' => by rw [h2] at h'; cases h'⟩⟩
        rw [hs] at h'; omega
    · next h2 =>
      have h2' : s.pool.lowArmed = false := by simpa using h2
      split
      · next h3 =>
        exact ⟨true, s.notices, rfl, ⟨fun h' => absurd ((hs _).symm.trans h') h,
          fun _ h' => absurd h' h2, fun _ h' => absurd h' h2, fun _ _ => ⟨by simp [hs, h3], rfl⟩⟩⟩
      · next h3 =>
        exact ⟨false, s.notices, by rw [← h2', ← ha], ⟨fun h' => absurd ((hs _).symm.trans h') h,
          fun _ h' => absurd h' h2, fun _ h' => absurd h' h2, fun _ _ => ⟨by simp [hs, h3], rfl⟩⟩⟩

/-- R100: a happening that leaves the pool as it is makes no test. -/
theorem lowPoolTested_same (s : State) : s.LowPoolTested s.pool s.notices :=
  ⟨fun _ => ⟨rfl, rfl⟩, fun h => absurd rfl h, fun h => absurd rfl h, fun h => absurd rfl h⟩

/-- The low-pool test reads the pool, the parameters and the notices only. -/
theorem State.LowPoolTested.congr {s u : State} {p : Pool} {n : Notices} (h : s.LowPoolTested p n)
    (hp : s.pool = u.pool) (ht : s.params.poolLow = u.params.poolLow) (hn : s.notices = u.notices) :
    u.LowPoolTested p n := by
  obtain ⟨h1, h2, h3, h4⟩ := h
  rw [hp, hn] at h1
  rw [hp, hn, ht] at h2 h3 h4
  exact ⟨h1, h2, h3, h4⟩

/-! ## Sequences (0.6) -/

/-- 0.6: s is before t exactly when the distance from t to s is 2049 or more. -/
theorem seqBefore_iff (s t : Seq) : seqBefore s t = true ↔ 2049 ≤ seqDistance t s := by
  have h1 := s.isLt
  have h2 := t.isLt
  have e : seqBefore s t = true ↔ 1 ≤ seqDistance s t ∧ seqDistance s t ≤ 2047 := by simp [seqBefore]
  rw [e]
  simp only [seqDistance, BitVec.toNat_sub]
  omega

/-! ## The in-order run and the reorder set (R27, R30) -/

/-- R30: the run takes the members of a contiguous run and stops before the rest. -/
theorem inOrderRun_eq {first : Seq} {run rest : List Member} (h : ContiguousRun first run rest) :
    inOrderRun first (run ++ rest) =
      ⟨first + BitVec.ofNat 12 run.length, rest, framesOf run, run.length⟩ := by
  obtain ⟨hc, hs⟩ := h
  induction run generalizing first with
  | nil =>
    cases rest with
    | nil => simp [inOrderRun, framesOf]
    | cons m rest =>
      have := hs m (by simp)
      simp at this
      simp [inOrderRun, framesOf, this]
  | cons m run ih =>
    have h0 : m.seq = first := by
      have := congrArg (·[0]?) hc
      simpa [List.range_succ_eq_map] using this
    have hc' : run.map (·.seq) = (List.range run.length).map fun k => first + 1 + BitVec.ofNat 12 k := by
      have := congrArg List.tail hc
      simp only [List.map_cons, List.tail_cons, List.length_cons, List.range_succ_eq_map, List.map_map]
        at this
      rw [this]
      apply List.map_congr_left
      intro k _
      simp only [Function.comp, Nat.succ_eq_add_one]
      apply BitVec.eq_of_toNat_eq; simp; omega
    have hs' : ∀ m ∈ rest.head?, m.seq ≠ first + 1 + BitVec.ofNat 12 run.length := by
      intro x hx e
      apply hs x hx
      rw [e]
      apply BitVec.eq_of_toNat_eq; simp; omega
    simp only [List.cons_append, inOrderRun, h0, if_true, ih hc' hs']
    simp only [InOrderRun.mk.injEq]
    refine ⟨?_, trivial, ?_, by simp⟩
    · apply BitVec.eq_of_toNat_eq; simp; omega
    · cases hk : m.kind <;> simp [framesOf, hk]

/-- R27: a member joins the set at its place. -/
theorem insertMember_eq {e : Seq} {m : Member} {before after : List Member}
    (h : PlaceInOrder e m.seq before after) :
    insertMember e m (before ++ after) = before ++ m :: after := by
  obtain ⟨hb, ha⟩ := h
  induction before with
  | nil =>
    cases after with
    | nil => rfl
    | cons x rest => simp [insertMember, ha x (by simp)]
  | cons x rest ih =>
    have hx := hb x (by simp)
    rw [List.cons_append, insertMember, if_neg (by omega), ih fun y hy => hb y (by simp [hy])]
    rfl

/-! ## Frames placed on the wire egress (R37, R114, R145) -/

/-- R145: what the transmitter does as it becomes IDLE. -/
theorem take_takesNext (w : WirePort) : w.TakesNext ({ w with transmitter := .idle } : WirePort).take := by
  refine ⟨?_, ?_, ?_, ?_⟩
  · intro h; simp [WirePort.take, h]
  · intro item rest h hm; simp [WirePort.take, h, hm]
  · intro cls item rest h hm hq higher
    have hcls : cls = 0 ∨ cls = 1 ∨ cls = 2 ∨ cls = 3 := by fin_cases cls <;> simp
    rcases hcls with rfl | rfl | rfl | rfl
    · simp [WirePort.take, h, hm, WirePort.takeClass, hq, higher 1 (by decide), higher 2 (by decide),
        higher 3 (by decide)]
    · simp [WirePort.take, h, hm, WirePort.takeClass, hq, higher 2 (by decide), higher 3 (by decide)]
    · simp [WirePort.take, h, hm, WirePort.takeClass, hq, higher 3 (by decide)]
    · simp [WirePort.take, h, hm, WirePort.takeClass, hq]
  · intro h hm hq
    simp [WirePort.take, h, hm, WirePort.takeClass, hq]

theorem take_busy {w : WirePort} (h : w.busy) : w.take = w := by
  unfold WirePort.take
  rcases h with h | h
  · split
    · rfl
    · next h' => exact absurd h' h
  · split
    · rfl
    · simp [h]

theorem joined_joined (w : WirePort) (cls : PortClass) (a b : List WireItem) :
    (w.joined cls a).joined cls b = w.joined cls (a ++ b) := by
  simp [WirePort.joined, List.append_assoc]

theorem joined_nil (w : WirePort) (cls : PortClass) : w.joined cls [] = w := by
  simp [WirePort.joined, writeAt_readAt]

/-- Frames placed one after another at the tail of a class queue. -/
def WirePort.placeAll (w : WirePort) (cls : PortClass) (items : List WireItem) : WirePort :=
  items.foldl (fun w item => (w.joined cls [item]).take) w

theorem placeAll_busy {w : WirePort} (cls : PortClass) (items : List WireItem) (h : w.busy) :
    w.placeAll cls items = w.joined cls items := by
  unfold WirePort.placeAll
  induction items generalizing w with
  | nil => exact (joined_nil w cls).symm
  | cons item rest ih =>
    have hb : (w.joined cls [item]).busy := h
    rw [List.foldl_cons, take_busy hb, ih hb, joined_joined]
    rfl

/-- R145: a transmitter that has taken a frame takes no other. -/
theorem busy_of_takesNext {w t : WirePort} (h : w.TakesNext t) {cls : PortClass} {item : WireItem}
    {rest : List WireItem} (hu : w.linkUp = true) (hq : readAt w.classQueues cls = item :: rest) : t.busy := by
  cases hm : w.managementEgress with
  | cons reply more => rw [h.management reply more hu hm]; left; simp
  | nil =>
    obtain ⟨c, hc, hh⟩ : ∃ c, readAt w.classQueues c ≠ [] ∧
        ∀ k, c < k → readAt w.classQueues k = [] := by
      by_contra hn
      push Not at hn
      have up : ∀ n : Nat, ∃ k : PortClass, n ≤ k.val ∧ readAt w.classQueues k ≠ [] := fun n => by
        induction n with
        | zero => exact ⟨cls, Nat.zero_le _, by simp [hq]⟩
        | succ n ih =>
          obtain ⟨k, hk, hne⟩ := ih
          obtain ⟨l, hl, hne'⟩ := hn k hne
          exact ⟨l, by have := Fin.lt_def.1 hl; omega, hne'⟩
      obtain ⟨k, hk, -⟩ := up 4
      exact absurd k.isLt (by omega)
    obtain ⟨item', rest', e⟩ := List.exists_cons_of_ne_nil hc
    rw [h.frame c item' rest' hu hm e hh]
    left; simp

/-- R37, R114, R145: what placing frames does to the wire port, once and for all. -/
theorem placeAll_placed (w : WirePort) (cls : PortClass) (items : List WireItem) :
    w.Placed cls items (w.placeAll cls items) := by
  have takes : ∀ first rest, w.transmitter = .idle → w.linkUp = true → items = first :: rest →
      (w.joined cls [first]).TakesNext (w.joined cls [first]).take ∧
        w.placeAll cls items = ((w.joined cls [first]).take).joined cls rest := by
    rintro first rest hi hu rfl
    have hid : ({ w.joined cls [first] with transmitter := .idle } : WirePort) = w.joined cls [first] := by
      simp [WirePort.joined, ← hi]
    have ht := hid ▸ take_takesNext (w.joined cls [first])
    refine ⟨ht, ?_⟩
    obtain ⟨item, more, hq⟩ : ∃ item more, readAt (w.joined cls [first]).classQueues cls = item :: more :=
      List.exists_cons_of_ne_nil (by simp [WirePort.joined])
    exact placeAll_busy cls rest (busy_of_takesNext ht hu hq)
  refine ⟨fun h => by rw [h]; rfl, fun h => placeAll_busy cls items h, ?_, fun first rest hi hu e =>
    ⟨_, takes first rest hi hu e⟩⟩
  intro first rest hi hu hm hq e
  obtain ⟨ht, he⟩ := takes first rest hi hu e
  rw [he, ht.frame cls first [] hu hm (by simp [WirePort.joined, hq]) fun c hc => by
    simp only [WirePort.joined]; rw [readAt_writeAt_ne _ _ (ne_of_lt hc), hq]]
  simp [WirePort.joined, hq]

/-- R37: frames delivered by a flow. -/
theorem deliverAll_eq (s : State) (f : FlowId) (frames : List Frame) :
    s.deliverAll f frames = { s with
      wire := s.wire.placeAll (s.profile f).wireClass (frames.map (⟨.flow f, ·⟩))
      flowCounters := writeAt s.flowCounters f { readAt s.flowCounters f with
        rxDelivered := (readAt s.flowCounters f).rxDelivered + BitVec.ofNat 32 frames.length } } := by
  unfold State.deliverAll
  induction frames generalizing s with
  | nil =>
    simp only [List.map_nil, List.foldl_nil, List.length_nil, BitVec.add_zero]
    exact congrArg (fun c => ({ s with flowCounters := c } : State)) (writeAt_readAt _ f).symm
  | cons frame rest ih =>
    rw [List.foldl_cons, ih]
    simp only [State.deliver, State.placeClass, State.modifyWire, State.countFlow, State.profile,
      readAt_writeAt_same, writeAt_writeAt, WirePort.placeAll, WirePort.joined, List.map_cons, List.foldl_cons,
      List.length_cons, State.mk.injEq, true_and, and_true]
    congr 2
    apply BitVec.eq_of_toNat_eq; simp; omega

/-- R37, R145: frames delivered by a flow, with what that does to the wire port. -/
theorem deliverAll_placed (s : State) (f : FlowId) (frames : List Frame) :
    ∃ w, s.wire.Placed (s.profile f).wireClass (frames.map (⟨.flow f, ·⟩)) w ∧
      s.deliverAll f frames = { s with
        wire := w
        flowCounters := writeAt s.flowCounters f { readAt s.flowCounters f with
          rxDelivered := (readAt s.flowCounters f).rxDelivered + BitVec.ofNat 32 frames.length } } :=
  ⟨_, placeAll_placed _ _ _, deliverAll_eq s f frames⟩

/-- R114: a frame of the bulk account placed on the wire egress. -/
theorem placeClass_placed (s : State) (cls : PortClass) (item : WireItem) :
    ∃ w, s.wire.Placed cls [item] w ∧ s.placeClass cls item = { s with wire := w } :=
  ⟨_, placeAll_placed _ _ _, rfl⟩

/-! ## An accepted block (R88) and a granted buffer (R96) -/

/-- R88, R81: an accepted block is taken by its destination in the state that `receiving` names. -/
theorem ifAccepted_of_receives {s : State} {b : LinkBlock} (h : s.Receives b) (dest : State → State) :
    s.dropFlowBlock.ifAccepted b.epoch dest = dest s.receiving := by
  have h1 : s.dropFlowBlock.accepts b.epoch = true := by
    simp [State.accepts, State.dropFlowBlock, State.modifyLink, h.partnered, h.epoch]
  rw [ifAccepted_of_accepts h1]
  congr 1
  simp [State.dropFlowBlock, State.restartSilence, State.receiving, State.modifyLink, State.modifyPart]

theorem toFlows_of_receives {s : State} {b : LinkBlock} (h : s.Receives b) :
    ∃ rest, s.link.toFlows = b :: rest := by
  have hh := h.head
  cases hl : s.link.toFlows with
  | nil => simp [hl] at hh
  | cons x rest =>
    rw [hl, List.head?_cons, Option.some.injEq] at hh
    exact ⟨rest, by rw [hh]⟩

theorem takesBlocks_of {fl : Flow}
    (h : fl.state = .opened ∨ fl.state = .draining ∨ fl.state = .closing) : fl.takesBlocks = true := by
  rcases h with h | h | h <;> simp [Flow.takesBlocks, h]

/-- R96, R100: a request for a buffer that the pool has is granted, with one low-pool test. -/
theorem grantFlow_of_hasBuffer {s : State} {f : FlowId} (h : s.HasBufferFor f)
    (he : s.engine.executing = none) :
    ∃ armed n, s.grantFlow f =
        some { s with pool := { s.pool.chargeFlow f with lowArmed := armed }, notices := n } ∧
      s.LowPoolTested { s.pool.chargeFlow f with lowArmed := armed } n := by
  obtain ⟨a, n, e, ht⟩ := lowPoolTest_tested s (s.pool.chargeFlow f) rfl he
  refine ⟨a, n, ?_, ht⟩
  have hg : s.pool.grantsFlow f (s.profile f).cap = true := by
    obtain ⟨h1, h2⟩ := h
    simp only [State.held] at h1 h2
    simp [Pool.grantsFlow, h1, h2]
  unfold State.grantFlow
  rw [if_pos hg]
  exact congrArg some e

/-- R40, R41: the marks of an accepted DATA, in the terms of Safety.lean. -/
theorem acceptData_eq (fl : Flow) (p : Profile) (gap : Bool) :
    Flow.acceptData { fl with statusPending := fl.statusPending || gap } p = fl.counted p gap := by
  simp only [Flow.acceptData, Flow.counted]
  congr 1
  cases fl.ackTimer <;> simp [Timer.startIfStopped]

/-! ## One buffer's return (R99) -/

/-- R98, R99: the return of one buffer to free, whatever the wire port becomes. -/
theorem releaseAccount_returned {s : State} {account : Account} (h : s.HoldsFor account)
    (he : s.engine.executing = none) :
    ∃ p n, s.releaseAccount account = { s with pool := p, notices := n } ∧
      ∀ w, s.BufferReturned { s with pool := p, notices := n, wire := w } account := by
  cases account with
  | flow f =>
    have h1 : 1 ≤ readAt s.pool.held f := h
    obtain ⟨armed, n, e, ht⟩ := lowPoolTest_tested s (s.pool.returnFlow f 1) rfl he
    refine ⟨_, n, e, fun w => ⟨by simp [Pool.returnFlow, h1], fun k => ?_, rfl, rfl, n, ht, rfl⟩⟩
    by_cases hk : f = k
    · subst hk; simp [Pool.returnFlow, State.held, h1]
    · simp [Pool.returnFlow, State.held, readAt_writeAt, hk]
  | bulk =>
    have h1 : 1 ≤ s.pool.bulkHeld := h
    obtain ⟨armed, n, e, ht⟩ := lowPoolTest_tested s { s.pool with
      free := s.pool.free + min 1 s.pool.bulkHeld, bulkHeld := s.pool.bulkHeld - 1 } rfl he
    exact ⟨_, n, e, fun w => ⟨by simp [h1], fun k => by simp [State.held], rfl, rfl, n, ht, rfl⟩⟩

/-! ## The entry of one flow to CLOSED or FAILED (R51) -/

theorem complete_takeAll (s : State) (fl : Flow) (outcome : DeferredCode → Completion × Option Detail)
    (he : s.engine.executing = none) :
    s.complete fl.deferred outcome = { s with notices := s.notices.takeAll (fl.completion outcome) } := by
  cases hd : fl.deferred with
  | none => simp [State.complete, Flow.completion, hd, Notices.takeAll]
  | some d =>
    simp [State.complete, Flow.completion, hd, Notices.takeAll, State.raiseCause, State.modifyNotices, he]

/-- R51 step 8 and 9, R100: the state after an entry, with the causes it raises in order. -/
theorem endFlow_raises (s : State) (f : FlowId) (new : FlowState) (cause : FlowCause)
    (failure : Option FailureCause) (keepBlock : Bool)
    (outcome : DeferredCode → Completion × Option Detail) (he : s.engine.executing = none) :
    ∃ armed n, s.endFlow f new cause failure keepBlock outcome = { s with
        flows := writeAt s.flows f ((s.flow f).ended new failure keepBlock)
        pool := { s.pool.returnFlow f (s.flow f).collectedBuffers with
          reservation := writeAt s.pool.reservation f 0, lowArmed := armed }
        link := if keepBlock then s.link else s.link.unqueued f
        notices := n.takeAll ((s.flow f).completion outcome ++
          [.flowState f (s.flow f).state new cause]) } ∧
      s.LowPoolTested { s.pool.returnFlow f (s.flow f).collectedBuffers with
        reservation := writeAt s.pool.reservation f 0, lowArmed := armed } n := by
  obtain ⟨a, n, e, ht⟩ := lowPoolTest_tested s
    { s.pool.returnFlow f (s.flow f).collectedBuffers with
      reservation := writeAt s.pool.reservation f 0 } rfl he
  refine ⟨a, n, ?_, ht⟩
  have e' : s.emptyAccount f (s.flow f).collectedBuffers = { s with
      pool := { s.pool.returnFlow f (s.flow f).collectedBuffers with
        reservation := writeAt s.pool.reservation f 0, lowArmed := a }
      notices := n } := e
  unfold State.endFlow
  simp only [e']
  cases keepBlock
  · simp only [Bool.false_eq_true, ↓reduceIte]
    rw [complete_takeAll _ _ _ (by simpa [State.clearPending] using he)]
    simp [State.clearPending, State.modifyLink, State.modifyFlow, State.flow, Flow.ended,
      State.raiseCause, State.modifyNotices, he, LinkPort.unqueued, Notices.takeAll, List.foldl_append]
  · simp only [↓reduceIte]
    rw [complete_takeAll _ _ _ (by simpa using he)]
    simp [State.modifyFlow, State.flow, Flow.ended, State.raiseCause, State.modifyNotices, he,
      Notices.takeAll, List.foldl_append]

/-- R51: the context and the pool after an entry, in the terms of Safety.lean. -/
theorem flowEnded_of_ended {s t : State} {f : FlowId} {new : FlowState} {failure : Option FailureCause}
    {keep armed : Bool} (hb : (s.flow f).collectedBuffers ≤ s.held f)
    (ht : t.flows = writeAt s.flows f ((s.flow f).ended new failure keep))
    (hp : t.pool = { s.pool.returnFlow f (s.flow f).collectedBuffers with
      reservation := writeAt s.pool.reservation f 0, lowArmed := armed })
    (hk : ∀ b ∈ ((s.flow f).ended new failure keep).pendingBlock, b.owedAtRest) :
    s.FlowEnded t f new := by
  have hf : t.flow f = (s.flow f).ended new failure keep := by simp [State.flow, ht]
  have hb' : (s.flow f).collectedBuffers ≤ readAt s.pool.held f := hb
  constructor
  · rw [hf]; rfl
  · rw [hf]; exact ⟨rfl, rfl, rfl, rfl, rfl, rfl, rfl, rfl, rfl, rfl, rfl, rfl, rfl, hk⟩
  · rw [hf]; exact ⟨rfl, rfl, rfl, rfl⟩
  · intro k hk; simp only [State.flow, ht]; rw [readAt_writeAt_ne _ _ (Ne.symm hk)]
  · simp [State.held, hp, Pool.returnFlow]; omega
  · intro k hk; simp only [State.held, hp, Pool.returnFlow]; rw [readAt_writeAt_ne _ _ (Ne.symm hk)]
  · simp [hp, Pool.returnFlow]; omega
  · rw [hp]; rfl
  · rw [hp]

/-- R51, R58, R63: an entry to CLOSED or FAILED with a block that has just become pending and stays so. -/
theorem endFlow_owing (s : State) (f : FlowId) (b : LifecycleBlock) (new : FlowState) (cause : FlowCause)
    (failure : Option FailureCause) (outcome : DeferredCode → Completion × Option Detail)
    (he : s.engine.executing = none) (hb : (s.flow f).collectedBuffers ≤ s.held f)
    (hk : b.owedAtRest = true) :
    ∃ t, (s.makePending f b).endFlow f new cause failure true outcome = t ∧ s.FlowEnded t f new ∧
      (t.flow f).pendingBlock = some b ∧
      (t.flow f).failureCause = failure.or (s.flow f).failureCause ∧ t.link = s.link.queued f ∧
      s.Raises t ((s.flow f).completion outcome ++ [.flowState f (s.flow f).state new cause]) ∧
      s.Unchanged [.flows, .pool, .link, .notices] t := by
  obtain ⟨a, n, e, ht⟩ := endFlow_raises (s.makePending f b) f new cause failure true outcome he
  have hf : (s.makePending f b).flow f = { s.flow f with pendingBlock := some b } := by
    simp [State.makePending, State.flow]
  have hc : ({ s.flow f with pendingBlock := some b } : Flow).collectedBuffers =
    (s.flow f).collectedBuffers := rfl
  rw [hf, hc] at e
  refine ⟨_, e, ⟨?_, ?_, ?_, ?_, ?_, ?_, ?_, ?_, ?_⟩, ?_, ?_, rfl, ⟨n, ?_, rfl⟩, ?_⟩
  · simp [State.flow, Flow.ended]
  · simp [State.flow, Flow.ended, Flow.atRest, hk]
  · simp [State.flow, Flow.ended]
  · intro k hk
    simp only [State.flow, makePending_eq]
    rw [readAt_writeAt_ne _ _ (Ne.symm hk), readAt_writeAt_ne _ _ (Ne.symm hk)]
  · have hb' : (s.flow f).collectedBuffers ≤ readAt s.pool.held f := hb
    simp [State.held, makePending_eq, Pool.returnFlow]; omega
  · intro k hk
    simp only [State.held, makePending_eq, Pool.returnFlow]
    rw [readAt_writeAt_ne _ _ (Ne.symm hk)]
  · have hb' : (s.flow f).collectedBuffers ≤ readAt s.pool.held f := hb
    simp [makePending_eq, Pool.returnFlow]; omega
  · rfl
  · rfl
  · simp [State.flow, Flow.ended]
  · simp [State.flow, Flow.ended]
  · rw [hf, hc] at ht; exact ht.congr rfl rfl rfl
  · constructor <;> first | (intro h; simp at h; done) | (intros; rfl)

end Sys2Proof.Machine
end

