-- ==== Sys2Proof/Laws/Lifecycle.lean ====
section
/-! SUPPORT. What an event at every flow does (R66 to R69, 3.7), said once for the events that end flows: the
contexts, the pool, the lifecycle order and the notices after all 64 flows. -/

namespace Sys2Proof.Machine

/-- An induction over the flows that an event has reached. -/
theorem eachFlow_ind {P : List FlowId → State → Prop} {g : State → FlowId → State}
    (h : ∀ done f s, f ∉ done → P done s → P (done ++ [f]) (g s f)) {s : State} (hs : P [] s) :
    P (List.finRange 64) (s.eachFlow g) := by
  have key : ∀ (l done : List FlowId) (t : State), l.Nodup → (∀ f ∈ l, f ∉ done) → P done t →
      P (done ++ l) (l.foldl g t) := by
    intro l
    induction l with
    | nil => intro done t _ _ ht; simpa using ht
    | cons f rest ih =>
      intro done t hl hd ht
      rw [List.nodup_cons] at hl
      have := ih (done ++ [f]) (g t f) hl.2 (by
        intro k hk hm
        rcases List.mem_append.mp hm with hm | hm
        · exact hd k (by simp [hk]) hm
        · simp at hm; subst hm; exact hl.1 hk) (h done f t (hd f (by simp)) ht)
      simpa using this
  simpa [State.eachFlow] using key (List.finRange 64) [] s (List.nodup_finRange 64) (by simp) hs

/-- R92: a change of one held count changes their sum by as much. -/
theorem heldByFlows_writeAt (p q : Pool) (f : FlowId) (x : Nat) (h : q.held = writeAt p.held f x) :
    q.heldByFlows + readAt p.held f = p.heldByFlows + x := by
  have e : ∀ r : Pool, r.heldByFlows = ∑ k : FlowId, readAt r.held k := fun r => by
    rw [Fin.sum_univ_def]; rfl
  rw [e, e, ← Finset.add_sum_erase _ _ (Finset.mem_univ f), ← Finset.add_sum_erase _ _ (Finset.mem_univ f), h]
  have hs : ∑ k ∈ Finset.univ.erase f, readAt (writeAt p.held f x) k =
      ∑ k ∈ Finset.univ.erase f, readAt p.held k :=
    Finset.sum_congr rfl fun k hk => readAt_writeAt_ne _ _ (Ne.symm (Finset.ne_of_mem_erase hk))
  rw [hs, readAt_writeAt_same]
  omega

/-- What an event that ends flows does at one flow: by `rule` to the context and, where `ends` says so, to the
pool, the lifecycle order and the notices as an entry to CLOSED or FAILED does (R51). -/
def EndsAt (g : State → FlowId → State) (rule : Flow → Flow) (ends : Flow → Bool) : Prop :=
  ∀ t f, ∃ armed n, g t f =
    if ends (t.flow f) then { t with
      flows := writeAt t.flows f (rule (t.flow f))
      pool := { t.pool.returnFlow f (t.flow f).collectedBuffers with
        reservation := writeAt t.pool.reservation f 0, lowArmed := armed }
      link := t.link.unqueued f
      notices := n }
    else { t with flows := writeAt t.flows f (rule (t.flow f)) }

/-- What has happened after an event has reached some flows. -/
structure EndedOver (s t : State) (rule : Flow → Flow) (ends : Flow → Bool) (l : List FlowId) : Prop where
  flow : ∀ k, t.flow k = if k ∈ l then rule (s.flow k) else s.flow k
  held : ∀ k, t.held k =
    if k ∈ l ∧ ends (s.flow k) = true then s.held k - (s.flow k).collectedBuffers else s.held k
  reservation : ∀ k, readAt t.pool.reservation k =
    if k ∈ l ∧ ends (s.flow k) = true then 0 else readAt s.pool.reservation k
  conserved : t.pool.heldByFlows + t.pool.free = s.pool.heldByFlows + s.pool.free
  bulkHeld : t.pool.bulkHeld = s.pool.bulkHeld
  link : t.link = { s.link with
    lifecycleOrder := s.link.lifecycleOrder.filter fun k => !(decide (k ∈ l) && ends (s.flow k)) }
  untouched : (∀ k ∈ l, ends (s.flow k) = false) → t.pool = s.pool ∧ t.notices = s.notices
  rest : t = { s with flows := t.flows, pool := t.pool, link := t.link, notices := t.notices }

theorem endedOver_all {g : State → FlowId → State} {rule : Flow → Flow} {ends : Flow → Bool}
    (hg : EndsAt g rule ends) (s : State) : EndedOver s (s.eachFlow g) rule ends (List.finRange 64) := by
  refine eachFlow_ind (P := fun l t => EndedOver s t rule ends l) ?_ ?_
  · intro done f t hf ht
    have hfl : t.flow f = s.flow f := by rw [ht.flow]; simp [hf]
    have hfh : t.held f = s.held f := by rw [ht.held]; simp [hf]
    have hfr : readAt t.pool.reservation f = readAt s.pool.reservation f := by
      rw [ht.reservation]; simp [hf]
    obtain ⟨a, n, e⟩ := hg t f
    by_cases he : ends (s.flow f) = true
    · rw [hfl, if_pos he] at e
      rw [e]
      constructor
      · intro k
        by_cases hk : f = k
        · subst hk; simp [State.flow]
        · simp only [State.flow] at *
          rw [readAt_writeAt_ne _ _ hk, ← State.flow, ht.flow]
          simp [State.flow, Ne.symm hk]
      · intro k
        by_cases hk : f = k
        · subst hk
          have : readAt t.pool.held f = readAt s.pool.held f := hfh
          simp [State.held, Pool.returnFlow, he, this]; omega
        · have := ht.held k
          simp only [State.held] at this ⊢
          simp only [Pool.returnFlow]
          rw [readAt_writeAt_ne _ _ hk, this]
          simp [Ne.symm hk]
      · intro k
        by_cases hk : f = k
        · subst hk; simp [he]
        · rw [readAt_writeAt_ne _ _ hk, ht.reservation k]; simp [Ne.symm hk]
      · have hh : readAt t.pool.held f = readAt s.pool.held f := hfh
        have := heldByFlows_writeAt t.pool
          { t.pool.returnFlow f (s.flow f).collectedBuffers with
            reservation := writeAt t.pool.reservation f 0, lowArmed := a } f _ rfl
        have h2 := ht.conserved
        simp only [Pool.returnFlow] at this ⊢
        omega
      · exact ht.bulkHeld
      · rw [ht.link]
        simp only [LinkPort.unqueued, List.filter_filter]
        congr 1
        apply List.filter_congr
        intro k _
        by_cases hk : k = f
        · subst hk; simp [he]
        · simp [hk]
      · intro h
        have := h f (by simp)
        rw [he] at this; cases this
      · have h := ht.rest
        rw [h]
    · have he' : ends (s.flow f) = false := by simpa using he
      rw [hfl, he'] at e
      simp only [Bool.false_eq_true, if_false] at e
      rw [e]
      constructor
      · intro k
        by_cases hk : f = k
        · subst hk; simp [State.flow]
        · simp only [State.flow] at *
          rw [readAt_writeAt_ne _ _ hk, ← State.flow, ht.flow]
          simp [State.flow, Ne.symm hk]
      · intro k
        have := ht.held k
        by_cases hk : k = f
        · subst hk; simpa [he', State.held] using hfh
        · change t.held k = _
          simpa [hk] using this
      · intro k
        have := ht.reservation k
        by_cases hk : k = f
        · subst hk; simpa [he'] using hfr
        · simpa [hk] using this
      · exact ht.conserved
      · exact ht.bulkHeld
      · change t.link = _
        rw [ht.link]
        refine congrArg (fun o => ({ s.link with lifecycleOrder := o } : LinkPort)) ?_
        apply List.filter_congr
        intro k _
        by_cases hk : k = f
        · subst hk; simp [he', hf]
        · simp [hk]
      · intro h
        exact ht.untouched fun k hk => h k (by simp [hk])
      · have h := ht.rest
        rw [h]
  · constructor <;> simp

/-! ## The events of R66 to R69 -/

/-- R51 at one flow, as an ending event does it. -/
theorem endFlow_endsAt (s : State) (f : FlowId) (new : FlowState) (cause : FlowCause)
    (failure : Option FailureCause) (outcome : DeferredCode → Completion × Option Detail) :
    ∃ armed n, s.endFlow f new cause failure false outcome = { s with
      flows := writeAt s.flows f ((s.flow f).ended new failure false)
      pool := { s.pool.returnFlow f (s.flow f).collectedBuffers with
        reservation := writeAt s.pool.reservation f 0, lowArmed := armed }
      link := s.link.unqueued f
      notices := n } := by
  obtain ⟨a, n, e⟩ := endFlow_eq s f new cause failure false outcome
  exact ⟨a, n, by rw [e]; rfl⟩

/-- R66 at one context. -/
def Flow.lost (fl : Flow) : Flow :=
  match fl.state with
  | .opening => fl.ended .closed none false
  | .opened | .draining | .closing => { fl with suspended := true }
  | .closed | .failed => fl

theorem lossAtFlow_endsAt : EndsAt State.lossAtFlow Flow.lost fun fl => fl.state == .opening := by
  intro t f
  unfold State.lossAtFlow Flow.lost
  cases hs : (t.flow f).state with
  | opening =>
    obtain ⟨a, n, e⟩ := endFlow_endsAt t f .closed .partnerLost none (plainOutcome .partnerLost)
    exact ⟨a, n, by simp only [hs, beq_self_eq_true, if_true]; exact e⟩
  | opened | draining | closing => exact ⟨false, t.notices, by simp [State.modifyFlow, hs]⟩
  | closed | failed => exact ⟨false, t.notices, by simp [hs]; simp [State.flow]⟩

/-- R68 at one context. -/
def Flow.partnershipEnded (failure : FailureCause) (fl : Flow) : Flow :=
  match fl.state with
  | .opening => fl.ended .closed none false
  | .opened | .draining | .closing => fl.ended .failed (some failure) false
  | .closed | .failed => fl

theorem partnershipEndAtFlow_endsAt (failure : FailureCause) :
    EndsAt (State.partnershipEndAtFlow failure) (Flow.partnershipEnded failure) (·.inUse) := by
  intro t f
  unfold State.partnershipEndAtFlow Flow.partnershipEnded
  cases hs : (t.flow f).state with
  | opening =>
    obtain ⟨a, n, e⟩ := endFlow_endsAt t f .closed .partnerLost none (endedOutcome failure)
    exact ⟨a, n, by simp only [Flow.inUse, hs, if_true]; exact e⟩
  | opened | draining | closing =>
    obtain ⟨a, n, e⟩ := endFlow_endsAt t f .failed (FailureCause.flowCause failure) (some failure)
      (endedOutcome failure)
    exact ⟨a, n, by simp only [Flow.inUse, hs, if_true]; exact e⟩
  | closed | failed => exact ⟨false, t.notices, by simp [Flow.inUse, hs]; simp [State.flow]⟩

/-- R69 at one context. -/
def Flow.left (new : FlowState) (failure : Option FailureCause) (fl : Flow) : Flow :=
  if fl.inUse then fl.ended new failure false else fl

theorem leaveAtFlow_endsAt :
    EndsAt State.leaveAtFlow (Flow.left .failed (some .partnerLeft)) (·.inUse) := by
  intro t f
  unfold State.leaveAtFlow Flow.left
  cases h : (t.flow f).inUse with
  | true =>
    obtain ⟨a, n, e⟩ := endFlow_endsAt t f .failed (FailureCause.flowCause .partnerLeft) (some .partnerLeft)
      (endedOutcome .partnerLeft)
    exact ⟨a, n, by simp only [h, if_true]; exact e⟩
  | false => exact ⟨false, t.notices, by simp [h]; simp [State.flow]⟩

theorem localLeaveAtFlow_endsAt : EndsAt State.localLeaveAtFlow (Flow.left .closed none) (·.inUse) := by
  intro t f
  unfold State.localLeaveAtFlow Flow.left
  cases h : (t.flow f).inUse with
  | true =>
    obtain ⟨a, n, e⟩ := endFlow_endsAt t f .closed .localLeave none (plainOutcome .aborted)
    exact ⟨a, n, by simp only [h, if_true]; exact e⟩
  | false => exact ⟨false, t.notices, by simp [h]; simp [State.flow]⟩

/-- R68, R69: every pending lifecycle block is discarded. -/
theorem discardPending_eq (s : State) : s.discardPending = { s with
    flows := tabulate fun f => { s.flow f with pendingBlock := none }
    link := { s.link with lifecycleOrder := [] } } := by
  have hf : ∀ k, (s.eachFlow fun s f => s.modifyFlow f fun fl => { fl with pendingBlock := none }).flow k =
      { s.flow k with pendingBlock := none } :=
    eachFlow_flow (rule := fun _ fl => { fl with pendingBlock := none })
      (by intro s f; simp [State.flow, State.modifyFlow])
      (by intro s f k hk; simp only [State.flow, State.modifyFlow]; exact readAt_writeAt_ne _ _ hk) s
  obtain ⟨flows, he⟩ := eachFlow_keeps (P := fun t => ∃ flows, t = { s with flows := flows })
    (g := fun s f => s.modifyFlow f fun fl => { fl with pendingBlock := none })
    (by rintro _ f ⟨flows, rfl⟩; exact ⟨_, rfl⟩) ⟨s.flows, rfl⟩
  have hv : flows = tabulate fun f => { s.flow f with pendingBlock := none } := by
    apply table_ext
    intro k
    have := hf k
    rw [he] at this
    rw [readAt_tabulate]
    exact this
  unfold State.discardPending
  rw [he, hv]
  rfl

/-! ## The event of R67 -/

/-- A cause that no low-pool test raises. -/
def NoticeContent.notLowPool (c : NoticeContent) : Bool := match c with
  | .poolLow _ => false
  | .flowState _ _ _ _ | .linkState _ _ _ | .completion _ _ _ _ => true

theorem Notices.takeAll_append (n : Notices) (a b : List NoticeContent) :
    (n.takeAll a).takeAll b = n.takeAll (a ++ b) := by
  simp [Notices.takeAll, List.foldl_append]

/-- R100: the causes named stand among those of low-pool tests, each below the threshold. -/
structure LowPoolAmong (poolLow : Nat) (all causes : List NoticeContent) : Prop where
  others : all.filter NoticeContent.notLowPool = causes
  low : ∀ free, .poolLow free ∈ all → free < poolLow

@[simp] theorem LowPoolAmong.nil (k : Nat) : LowPoolAmong k [] [] := ⟨rfl, by simp⟩

theorem LowPoolAmong.append {k : Nat} {a b c d : List NoticeContent} (h : LowPoolAmong k a c)
    (h' : LowPoolAmong k b d) : LowPoolAmong k (a ++ b) (c ++ d) :=
  ⟨by rw [List.filter_append, h.others, h'.others], fun x hx =>
    (List.mem_append.mp hx).elim (h.low x) (h'.low x)⟩

/-- Causes none of which is of a low-pool test. -/
theorem LowPoolAmong.plain {k : Nat} {l : List NoticeContent} (h : ∀ c ∈ l, c.notLowPool = true) :
    LowPoolAmong k l l :=
  ⟨List.filter_eq_self.mpr h, fun _ hx => by simpa [NoticeContent.notLowPool] using h _ hx⟩

/-- R100: a low-pool test raises nothing but a POOL_LOW below the threshold. -/
theorem lowPoolTested_takes {s : State} {p : Pool} {n : Notices} (h : s.LowPoolTested p n) :
    ∃ l, n = s.notices.takeAll l ∧ LowPoolAmong s.params.poolLow l [] := by
  by_cases h1 : p.sharedFree = s.pool.sharedFree
  · exact ⟨[], (h.untested h1).2, rfl, by simp⟩
  · cases h2 : s.pool.lowArmed with
    | false => exact ⟨[], (h.disarmed h1 h2).2, rfl, by simp⟩
    | true =>
      by_cases h3 : p.sharedFree < s.params.poolLow
      · exact ⟨_, (h.fell h1 h2 h3).2, rfl, fun x hx => by simp at hx; omega⟩
      · exact ⟨[], (h.above h1 h2 (by omega)).2, rfl, by simp⟩

/-- R67 at one context: resumed, with the block that it owes and the end of its drain. -/
def Flow.regained (base : Nat) (fl : Flow) : Flow :=
  if fl.suspended then
    let r := fl.resumed base
    if fl.state = .closing ∧ fl.pendingBlock = none then { r with pendingBlock := some .close }
    else if fl.drainsAtRegain then
      match fl.drainOrigin with
      | some .localEnd => { r with
          state := .closing, drainOrigin := none, attempts := 0, pendingBlock := some .close }
      | some .peerEnd => ({ r with pendingBlock := some .closeAck } : Flow).ended .closed none true
      | none => r
    else r
  else fl

/-- R67 at one flow, with the causes that it raises. -/
theorem regainAtFlow_eq (t : State) (f : FlowId) (he : t.engine.executing = none) :
    ∃ armed all, t.regainAtFlow f = { t with
      flows := writeAt t.flows f (Flow.regained (t.profile f).rtoBase (t.flow f))
      pool := if (t.flow f).endsAtRegain then { t.pool.returnFlow f (t.flow f).collectedBuffers with
        reservation := writeAt t.pool.reservation f 0, lowArmed := armed } else t.pool
      link := if (t.flow f).owesAtRegain then t.link.queued f else t.link
      notices := t.notices.takeAll all } ∧
      LowPoolAmong t.params.poolLow all ((t.flow f).causesAtRegain f) ∧
      ((t.flow f).endsAtRegain = false → all = (t.flow f).causesAtRegain f) := by
  cases hs : (t.flow f).suspended with
  | false =>
    have hd : (t.flow f).drainsAtRegain = false := by simp [Flow.drainsAtRegain, hs]
    refine ⟨false, [], ?_, by simp [Flow.causesAtRegain, hd], by simp [Flow.causesAtRegain, hd]⟩
    simp only [State.regainAtFlow, Flow.regained, Flow.endsAtRegain, Flow.owesAtRegain, hs, hd]
    simp [State.flow, Notices.takeAll]
  | true =>
    let u := t.modifyFlow f fun fl => fl.resumed (t.profile f).rtoBase
    have hu : u.flow f = (t.flow f).resumed (t.profile f).rtoBase := by simp [u]
    by_cases hc : (t.flow f).state = .closing ∧ (t.flow f).pendingBlock = none
    · have hd : (t.flow f).drainsAtRegain = false := by simp [Flow.drainsAtRegain, hc]
      refine ⟨false, [], ?_, by simp [Flow.causesAtRegain, hd], by simp [Flow.causesAtRegain, hd]⟩
      simp [State.regainAtFlow, Flow.regained, Flow.endsAtRegain, Flow.owesAtRegain, hs, hd, hc,
        Notices.takeAll, Flow.resumed, State.makePending, State.modifyFlow, State.modifyLink]
      simp [State.flow, LinkPort.queued]
    · have hreg : t.regainAtFlow f = u.completeDrain f := by
        have : ¬((u.flow f).state = .closing ∧ (u.flow f).pendingBlock = none) := by rw [hu]; exact hc
        unfold State.regainAtFlow
        simp only [hs, if_true]
        exact if_neg this
      have hdr : (u.flow f).drained = (t.flow f).drainsAtRegain := by
        rw [hu]; simp [Flow.drained, Flow.drainsAtRegain, Flow.resumed, hs]
      have hcs : ((t.flow f).state == .closing && (t.flow f).pendingBlock.isNone) = false := by
        rw [Bool.eq_false_iff]; simpa using hc
      rw [hreg]
      unfold State.completeDrain
      cases hd : (t.flow f).drainsAtRegain with
      | false =>
        refine ⟨false, [], ?_, by simp [Flow.causesAtRegain, hd], by simp [Flow.causesAtRegain, hd]⟩
        simp only [Flow.regained, Flow.endsAtRegain, Flow.owesAtRegain, hs, hd, hdr, hc, hcs, if_true,
          if_false, Bool.true_and]
        rfl
      | true =>
        have hd' := hd
        simp only [Flow.drainsAtRegain, Bool.and_eq_true, beq_iff_eq, List.isEmpty_iff] at hd'
        obtain ⟨⟨⟨⟨-, hst⟩, -⟩, hwin⟩, -⟩ := hd'
        have hor : (u.flow f).drainOrigin = (t.flow f).drainOrigin := by rw [hu]; rfl
        rw [if_pos (hdr.trans hd), hor]
        cases ho : (t.flow f).drainOrigin with
        | none =>
          refine ⟨false, [], ?_, by simp [Flow.causesAtRegain, hd, ho], by simp [Flow.causesAtRegain, hd, ho]⟩
          simp only [Flow.regained, Flow.endsAtRegain, Flow.owesAtRegain, hs, hd, hc, hcs, ho, if_true,
            if_false, Bool.true_and]
          rfl
        | some origin =>
          cases origin with
          | localEnd =>
            refine ⟨false, [.flowState f .draining .closing .drained], ?_,
              by simpa [Flow.causesAtRegain, hd, ho] using LowPoolAmong.plain (by simp [NoticeContent.notLowPool]),
              by simp [Flow.causesAtRegain, hd, ho]⟩
            have hst' : (readAt t.flows f).state = .draining := hst
            simp only [makePending_eq, changeFlowState_eq, State.modifyFlow, Flow.regained,
              Flow.endsAtRegain, Flow.owesAtRegain, hs, hd, hc, ho, hu, if_true, if_false]
            simp [u, State.modifyFlow, Notices.takeAll, he, LinkPort.queued, Flow.resumed, State.flow, hst']
          | peerEnd =>
            obtain ⟨a, n, e, ht⟩ := endFlow_raises (u.makePending f .closeAck) f .closed .drained none true
              (plainOutcome .done) he
            obtain ⟨l, hl, hlf⟩ := lowPoolTested_takes ht
            have hm : (u.makePending f .closeAck).flow f =
                { (t.flow f).resumed (t.profile f).rtoBase with pendingBlock := some .closeAck } := by
              rw [← hu]; simp [State.makePending]
            have hb : ({ (t.flow f).resumed (t.profile f).rtoBase with
                pendingBlock := some .closeAck } : Flow).collectedBuffers = (t.flow f).collectedBuffers := by
              simp [Flow.collectedBuffers, Flow.resumed, hwin]
            have hcauses : (t.flow f).causesAtRegain f =
                ({ (t.flow f).resumed (t.profile f).rtoBase with
                  pendingBlock := some .closeAck } : Flow).completion (plainOutcome .done) ++
                [.flowState f (t.flow f).state .closed .drained] := by
              simp only [Flow.causesAtRegain, hd, ho, Flow.completion, Flow.resumed, hst]; rfl
            refine ⟨a, l ++ (t.flow f).causesAtRegain f, ?_, ?_, by simp [Flow.endsAtRegain, hd, ho]⟩
            · unfold State.closeFlow
              rw [e, hl, Notices.takeAll_append, hm, hb, hcauses]
              simp only [Flow.regained, Flow.endsAtRegain, Flow.owesAtRegain, hs, hd, hc, ho, if_true,
                if_false]
              simp [State.makePending, u, State.modifyFlow, State.modifyLink, LinkPort.queued, Flow.resumed]
            · refine hlf.append (LowPoolAmong.plain fun c hc => ?_)
              simp only [Flow.causesAtRegain, hd, ho, Flow.completion] at hc
              cases hq : (t.flow f).deferred <;> rw [hq] at hc <;> simp at hc
              · subst hc; rfl
              · rcases hc with rfl | rfl <;> rfl

/-! ## The causes of the events of R66 to R69 -/

/-- R170 to R173: the notices after causes that are taken in order under one mark. -/
def Notices.takeMarked (n : Notices) (mark : Option RequestMark) (causes : List NoticeContent) : Notices :=
  causes.foldl (fun n c => n.take c mark) n

/-- R100: a low-pool test raises at most one POOL_LOW. -/
theorem lowPoolTest_among (s : State) (before : Nat) :
    ∃ armed all, s.lowPoolTest before = { s with
        pool := { s.pool with lowArmed := armed }
        notices := s.notices.takeMarked s.engine.executing all } ∧
      LowPoolAmong s.params.poolLow all [] := by
  unfold State.lowPoolTest
  simp only
  split
  · exact ⟨s.pool.lowArmed, [], rfl, rfl, by simp⟩
  · split
    · split
      · next h => exact ⟨false, [.poolLow s.pool.sharedFree], rfl, rfl, fun x hx => by simp at hx; omega⟩
      · exact ⟨s.pool.lowArmed, [], rfl, rfl, by simp⟩
    · split
      · exact ⟨true, [], rfl, rfl, by simp⟩
      · exact ⟨s.pool.lowArmed, [], rfl, rfl, by simp⟩

/-- R51 steps 5, 8 and 9: what an entry to CLOSED or FAILED raises. -/
theorem endFlow_among (s : State) (f : FlowId) (new : FlowState) (cause : FlowCause)
    (failure : Option FailureCause) (outcome : DeferredCode → Completion × Option Detail) :
    ∃ all, (s.endFlow f new cause failure false outcome).notices =
        s.notices.takeMarked s.engine.executing all ∧
      LowPoolAmong s.params.poolLow all ((s.flow f).causesAtEnd f new cause outcome) := by
  obtain ⟨a, all, e, h⟩ := lowPoolTest_among (s.modifyPool fun p =>
    { p.returnFlow f (s.flow f).collectedBuffers with reservation := writeAt p.reservation f 0 })
    s.pool.sharedFree
  refine ⟨all ++ (s.flow f).causesAtEnd f new cause outcome, ?_, ?_⟩
  · unfold State.endFlow
    simp only [State.emptyAccount, e]
    cases hd : (s.flow f).deferred <;>
      simp [hd, State.complete, Flow.causesAtEnd, Flow.completion, Notices.takeMarked, List.foldl_append,
        State.clearPending, State.modifyLink, State.modifyFlow, State.modifyPool, State.raiseCause, State.modifyNotices]
  · have := h.append (LowPoolAmong.plain (k := s.params.poolLow)
      (l := (s.flow f).causesAtEnd f new cause outcome) ?_)
    · simpa using this
    · cases hd : (s.flow f).deferred <;>
        simp [Flow.causesAtEnd, Flow.completion, hd, NoticeContent.notLowPool]

/-- What an event raises at one flow. -/
def RaisesAt (g : State → FlowId → State) (causes : FlowId → Flow → List NoticeContent) : Prop :=
  ∀ t f, ∃ all, (g t f).notices = t.notices.takeMarked t.engine.executing all ∧
    LowPoolAmong t.params.poolLow all (causes f (t.flow f))

/-- What an event that ends flows raises over all of them. -/
theorem eachFlow_among {g : State → FlowId → State} {rule : Flow → Flow} {ends : Flow → Bool}
    {causes : FlowId → Flow → List NoticeContent} (hg : EndsAt g rule ends) (hr : RaisesAt g causes)
    (s : State) :
    ∃ all, (s.eachFlow g).notices = s.notices.takeMarked s.engine.executing all ∧
      LowPoolAmong s.params.poolLow all (s.flowCauses causes) := by
  have key := eachFlow_ind (g := g) (s := s) (P := fun l t => (∀ k, k ∉ l → t.flow k = s.flow k) ∧
    t.engine = s.engine ∧ t.params = s.params ∧
    ∃ all, t.notices = s.notices.takeMarked s.engine.executing all ∧
      LowPoolAmong s.params.poolLow all (l.flatMap fun f => causes f (s.flow f))) ?_ ?_
  · exact key.2.2.2
  · rintro done f t hf ⟨h1, h2, h3, all, h4, h5⟩
    obtain ⟨a, n, e⟩ := hg t f
    obtain ⟨more, h6, h7⟩ := hr t f
    rw [h2, h4] at h6
    rw [h3, h1 f hf] at h7
    refine ⟨?_, ?_, ?_, all ++ more, ?_, by simpa using h5.append h7⟩
    · intro k hk
      have hk' : k ∉ done ∧ f ≠ k := by simpa [eq_comm] using hk
      rw [← h1 k hk'.1, e]
      split <;> (simp only [State.flow]; exact readAt_writeAt_ne _ _ hk'.2)
    · rw [e]; split <;> exact h2
    · rw [e]; split <;> exact h3
    · rw [h6]; simp [Notices.takeMarked, List.foldl_append]
  · exact ⟨fun _ _ => rfl, rfl, rfl, [], rfl, rfl, by simp⟩

theorem lossAtFlow_raises : RaisesAt State.lossAtFlow Flow.causesAtLoss := by
  intro t f
  unfold State.lossAtFlow Flow.causesAtLoss
  cases (t.flow f).state with
  | opening => exact endFlow_among t f .closed .partnerLost none _
  | opened | draining | closing | closed | failed => exact ⟨[], rfl, rfl, by simp⟩

/-- R68 with the failure cause of its event. -/
theorem partnershipEndAtFlow_raises (failure : FailureCause) :
    RaisesAt (State.partnershipEndAtFlow failure)
      (Flow.causesAtRestart (FailureCause.flowCause failure) (FailureCause.detail failure)) := by
  intro t f
  have ho : outcomeAtEnd (FailureCause.detail failure) = endedOutcome failure := by
    funext code; cases code <;> rfl
  unfold State.partnershipEndAtFlow Flow.causesAtRestart
  rw [ho]
  cases (t.flow f).state with
  | opening => exact endFlow_among t f .closed .partnerLost none _
  | opened | draining | closing => exact endFlow_among t f .failed _ _ _
  | closed | failed => exact ⟨[], rfl, rfl, by simp⟩

theorem leaveAtFlow_raises : RaisesAt State.leaveAtFlow Flow.causesAtLeave := by
  intro t f
  have ho : outcomeAtEnd .partnerLeft = endedOutcome .partnerLeft := by
    funext code; cases code <;> rfl
  unfold State.leaveAtFlow Flow.causesAtLeave
  rw [ho]
  split
  · exact endFlow_among t f .failed .partnerLeft (some .partnerLeft) _
  · exact ⟨[], rfl, rfl, by simp⟩

theorem localLeaveAtFlow_raises : RaisesAt State.localLeaveAtFlow Flow.causesAtLocalLeave := by
  intro t f
  unfold State.localLeaveAtFlow Flow.causesAtLocalLeave
  split
  · exact endFlow_among t f .closed .localLeave none _
  · exact ⟨[], rfl, rfl, by simp⟩

/-! ## A restart applied (R167) -/

/-- R167: what the application of a restart leaves. -/
theorem applyRestart_restarted (s : State) : s.Restarted s.applyRestart := by
  constructor
  case wireTransmitter => simp only [State.applyRestart]; cases s.wire.transmitter <;> rfl
  case linkTransmitter => simp only [State.applyRestart]; cases s.link.transmitter <;> rfl
  all_goals simp [State.applyRestart, State.flow, WirePort.initial]

/-- What a restart keeps is all that `Restarted` reads of the state before it. -/
theorem State.Restarted.congr {s u t : State} (h : u.Restarted t) (tables : u.tables = s.tables)
    (params : u.params = s.params)
    (notices : ({ u.notices with queue := [], overrun := false } : Notices) =
      { s.notices with queue := [], overrun := false })
    (wire : u.wire.transmitter = s.wire.transmitter ∧ u.wire.linkUp = s.wire.linkUp)
    (port : u.link.transmitter = s.link.transmitter ∧ u.link.slotSignal = s.link.slotSignal ∧
      u.link.grant = s.link.grant ∧ u.link.toPartnership = s.link.toPartnership ∧
      u.link.toFlows = s.link.toFlows ∧ u.link.toBulk = s.link.toBulk)
    (kept : u.epochDraws = s.epochDraws ∧ u.unitId = s.unitId ∧ u.pending = s.pending) :
    s.Restarted t := by
  obtain ⟨w1, w2⟩ := wire
  obtain ⟨p1, p2, p3, p4, p5, p6⟩ := port
  obtain ⟨k1, k2, k3⟩ := kept
  exact {
    flows := fun f => by rw [h.flows]; simp only [State.profile, tables]
    pool := h.pool
    partnership := h.partnership
    hits := h.hits
    tables := tables ▸ h.tables
    wireQueues := h.wireQueues
    wireTransmitter := w1 ▸ h.wireTransmitter
    wiredLink := w2 ▸ h.wiredLink
    link := h.link
    linkTransmitter := p1 ▸ h.linkTransmitter
    slot := by rw [← p2, ← p3]; exact h.slot
    routed := by rw [← p4, ← p5, ← p6]; exact h.routed
    engine := h.engine
    params := params ▸ h.params
    notices := notices ▸ h.notices
    counters := h.counters
    kept := by rw [← k1, ← k2, ← k3]; exact h.kept }

end Sys2Proof.Machine
end

