-- ==== Sys2Proof/Laws/Offers.lean ====
section
/-! SUPPORT. What the tests that rules read come to: which entry of a bank matches a frame (6.3), which window entry
is due, and which flow owes a lifecycle block freely. -/

namespace Sys2Proof.Machine

/-! ## Matching (R107) -/

theorem absentOr_iff {α : Type} (m : Option α) (test : α → Bool) :
    absentOr m test = true ↔ ∀ x, m = some x → test x = true := by
  cases m <;> simp [absentOr]

theorem vlanHolds_iff (m : Option VlanMatch) (tag : Option (BitVec 3 × BitVec 12)) :
    absentOr m (·.holds tag) = true ↔
      (m = some .untagged → tag = none) ∧
        ∀ vid, m = some (.id vid) → ∃ priority, tag = some (priority, vid) := by
  rw [absentOr_iff]
  rcases m with _ | _ | vid <;> rcases tag with _ | ⟨p, v⟩ <;> simp [VlanMatch.holds]
  exact eq_comm

theorem priorityHolds_iff (range : BitVec 3 × BitVec 3) (tag : Option (BitVec 3 × BitVec 12)) :
    priorityHolds range tag = true ↔
      ∃ priority vid, tag = some (priority, vid) ∧ range.1 ≤ priority ∧ priority ≤ range.2 := by
  rcases tag with _ | ⟨p, v⟩ <;> simp [priorityHolds, BitVec.le_def]

theorem maskedEqual_iff (bytes : List (Byte × Byte)) (payload : List Byte) (h : bytes.length ≤ payload.length) :
    ((payload.zip bytes).all fun (b, value, mask) => b &&& mask == value &&& mask) = true ↔
      ∀ (i : Nat) (value mask : Byte), bytes[i]? = some (value, mask) →
        ∃ b, payload[i]? = some b ∧ b &&& mask = value &&& mask := by
  induction bytes generalizing payload with
  | nil => simp
  | cons x rest ih =>
    cases payload with
    | nil => simp at h
    | cons b payload =>
      rw [List.zip_cons_cons, List.all_cons, Bool.and_eq_true, ih _ (by simpa using h)]
      constructor
      · rintro ⟨h0, hs⟩ i value mask hi
        cases i with
        | zero =>
          simp only [List.getElem?_cons_zero, Option.some.injEq] at hi
          subst hi
          exact ⟨b, rfl, by simpa using h0⟩
        | succ i => simpa using hs i value mask (by simpa using hi)
      · intro hs
        refine ⟨?_, fun i value mask hi => by simpa using hs (i + 1) value mask (by simpa using hi)⟩
        obtain ⟨b', hb, e⟩ := hs 0 x.1 x.2 rfl
        simp only [List.getElem?_cons_zero, Option.some.injEq] at hb
        subst hb
        simpa using e

theorem patternHolds_iff (p : PayloadPattern) (payload : List Byte) :
    p.holds payload = true ↔ p.offset + p.bytes.length ≤ payload.length ∧
      ∀ i value mask, p.bytes[i]? = some (value, mask) →
        ∃ b, payload[p.offset + i]? = some b ∧ b &&& mask = value &&& mask := by
  unfold PayloadPattern.holds
  rw [Bool.and_eq_true, decide_eq_true_iff]
  refine and_congr_right fun h => ?_
  rw [maskedEqual_iff _ _ (by rw [List.length_drop]; omega)]
  simp only [List.getElem?_drop]

/-- R107, Table 6.1: the entry's test in the terms of Safety.lean. -/
theorem classEntry_holds_iff (e : ClassEntry) (v : FrameView) : e.holds v = true ↔ e.Matches v := by
  simp only [ClassEntry.holds, Bool.and_eq_true, vlanHolds_iff]
  simp only [absentOr_iff, priorityHolds_iff, patternHolds_iff, beq_iff_eq]
  constructor
  · rintro ⟨⟨⟨⟨⟨⟨h1, h2⟩, h3⟩, h4⟩, h5, h6⟩, h7⟩, h8⟩
    exact ⟨h1, fun a h => (h2 a h).symm, fun a h => (h3 a h).symm, fun a h => (h4 a h).symm, h5, h6,
      fun l u h => h7 _ h, h8⟩
  · rintro ⟨h1, h2, h3, h4, h5, h6, h7, h8⟩
    exact ⟨⟨⟨⟨⟨⟨h1, fun a h => (h2 a h).symm⟩, fun a h => (h3 a h).symm⟩, fun a h => (h4 a h).symm⟩, h5,
      h6⟩, fun r h => h7 r.1 r.2 h⟩, h8⟩

/-- R108: the entry that the classifier names is the first that matches. -/
theorem classify_eq_some_iff (b : Bank) (v : FrameView) (i : Fin 128) :
    b.classify v = some i ↔ b.DecidedBy v i := by
  simp only [Bank.classify, Bank.DecidedBy, ← classEntry_holds_iff, List.find?_eq_some_iff_getElem]
  constructor
  · rintro ⟨hp, k, hk, e, hl⟩
    refine ⟨hp, fun j hj => ?_⟩
    rw [← e, List.getElem_finRange] at hj
    simpa using hl j.val hj
  · rintro ⟨hp, hl⟩
    refine ⟨hp, i.val, by simp, by simp, fun j hj => ?_⟩
    simpa using hl ⟨j, by omega⟩ hj

/-- R108: no entry is named exactly when none matches. -/
theorem classify_eq_none_iff (b : Bank) (v : FrameView) : b.classify v = none ↔ b.Undecided v := by
  simp [Bank.Undecided, Bank.classify, List.find?_eq_none, ← classEntry_holds_iff]

/-! ## The search for the first (R8, R108, R135) -/

/-- A test that is never met finds nothing, and one that is first met in the middle finds that member. -/
theorem find?_first {α : Type} {p : α → Bool} {before after : List α} {x : α} (hx : p x = true)
    (hb : ∀ y ∈ before, p y = false) : (before ++ x :: after).find? p = some x := by
  rw [List.find?_append, List.find?_eq_none.2 (by simpa using hb)]
  simp [hx]

theorem due_iff (e : WindowEntry) : e.due = true ↔ e.IsDue := by
  unfold WindowEntry.due WindowEntry.IsDue
  rcases e with ⟨_, c, _⟩
  rcases c with _ | _ | _ | a
  · simp
  · simp
  · simp
  · cases a <;> simp

/-- R8: a data grant serves the due entry of lowest sequence. -/
theorem firstDue_of_servesFirst {fl : Flow} {older newer : List WindowEntry} {e : WindowEntry}
    (h : fl.ServesFirst older e newer) : fl.firstDue = some e := by
  unfold Flow.firstDue
  rw [h.window]
  exact find?_first ((due_iff e).2 h.due) fun y hy => Bool.eq_false_iff.2 fun hd => h.first y hy ((due_iff y).1 hd)

theorem firstDue_eq_none_iff (fl : Flow) : fl.firstDue = none ↔ ∀ e ∈ fl.window, ¬ e.IsDue := by
  simp [Flow.firstDue, List.find?_eq_none, ← due_iff]

/-- R50, R135: a pending lifecycle block of a flow that is not suspended is offered. -/
theorem offersLifecycle_iff (fl : Flow) : fl.offersLifecycle = true ↔ fl.OwesFreely := by
  simp [Flow.offersLifecycle, Flow.OwesFreely, Option.isSome_iff_ne_none]

end Sys2Proof.Machine
end

