-- ==== Sys2Proof/Laws/Requests.lean ====
section
/-! SUPPORT. What the execution of a request does (R156, R157, R173), said once for all the requests, in the terms
of Safety.lean. -/

namespace Sys2Proof.Machine

theorem begin_eq (s : State) (r : Request) :
    s.begin r = { s with engine := { s.engine with
      requests := s.engine.requests.drop 1, executing := some ⟨r.source, r.tag⟩ } } := rfl

theorem headRequest_of_takes {s : State} {r : Request} {code : Byte} (h : s.Takes r code) :
    s.headRequest = some r := by
  obtain ⟨hh, hr, hp, -, -, -⟩ := h
  unfold State.headRequest
  cases hq : s.engine.requests with
  | nil => simp [hq] at hh
  | cons x rest =>
    rw [hq, List.head?_cons, Option.some.injEq] at hh
    subst hh
    simp [hr, hp]

theorem bound_of_takes {s : State} {r : Request} {code : Byte} (h : s.Takes r code) :
    (s.begin r).lacksBinding r.source r.code = false := by
  have hb := h.bound
  rw [← h.coded] at hb
  have e : (s.begin r).boundTo r.source = s.boundTo r.source := rfl
  unfold State.lacksBinding
  rw [e]
  rcases hb with hb | hb | hb <;> simp [hb]

/-- R156: a request that is next to be executed is executed, and its answer is placed. -/
theorem execute_of_takes {s : State} {r : Request} {code : Byte} (h : s.Takes r code)
    {named : Byte → Bool} (hn : named code = true) (work : Request → State → Answer × State) :
    s.execute named work =
      .next (((work r (s.begin r)).2.answerRequest r (work r (s.begin r)).1).finish) := by
  unfold State.execute
  rw [headRequest_of_takes h]
  simp only [h.coded, hn, if_true]
  unfold State.executeRequest
  rw [h.coded] at *
  have := bound_of_takes h
  rw [h.coded] at this
  simp [this]

/-- R152, R156, R157, R173: what the answering of a request changes: the reply path, the record, the marks. -/
theorem answerRequest_eq (s : State) (r : Request) (a : Answer) :
    ∃ w replies, s.answerRequest r a = { s with
      wire := w
      notices := s.notices.clearMarks ⟨r.source, r.tag⟩
      engine := { s.engine with
        record := (if s.engine.record.length < 8 then s.engine.record else s.engine.record.drop 1) ++
          [⟨r.source, r.tag, s.responseFrame r.source r.tag r.code a.status a.body⟩]
        linkReply := replies
        executing := none } } ∧
      w.linkUp = s.wire.linkUp ∧
      (w, replies) = (match r.origin with
        | .wire => (({ s.wire with managementEgress := s.wire.managementEgress ++
            [⟨s.responseFrame r.source r.tag r.code a.status a.body, isRestartResponse r a⟩] } :
              WirePort).take, s.engine.linkReply)
        | .link => (s.wire, if s.part.state = .silent then s.engine.linkReply else s.engine.linkReply ++
            [⟨s.responseFrame r.source r.tag r.code a.status a.body, isRestartResponse r a⟩])) := by
  unfold State.answerRequest State.respond
  cases ho : r.origin with
  | wire =>
    refine ⟨_, _, ?_, ?_, rfl⟩
    · simp only [State.placeReply, State.modifyEngine, State.modifyWire, State.modifyNotices, Engine.store]
    · exact (take_keeps _).2
  | link =>
    by_cases hs : s.part.state = .silent
    · exact ⟨s.wire, s.engine.linkReply, by
        simp [State.placeReply, State.modifyEngine, State.modifyNotices, Engine.store, hs], rfl, by simp [hs]⟩
    · refine ⟨s.wire, _, ?_, rfl, by simp [hs]; rfl⟩
      simp [State.placeReply, State.modifyEngine, State.modifyNotices, Engine.store, hs]

/-- R145: a take that a management frame has just joined changes the transmitter only. -/
theorem take_reply (w : WirePort) (item : ReplyItem) :
    let w' := ({ w with managementEgress := w.managementEgress ++ [item] } : WirePort).take
    w'.managementEgress = w.managementEgress ++ [item] ∧ w'.classQueues = w.classQueues ∧
      w'.linkUp = w.linkUp ∧
      if w.transmitter = .idle ∧ w.linkUp = true then
        ∀ head rest, w'.managementEgress = head :: rest →
          w'.transmitter = .sending .management (withCheck head.frame)
      else w'.transmitter = w.transmitter := by
  obtain ⟨egress, queues, transmitter, up⟩ := w
  cases transmitter with
  | sending o b => simp [WirePort.take]
  | idle =>
    cases up with
    | false => simp [WirePort.take]
    | true => cases egress <;> simp [WirePort.take]

/-- R156, R157, R152: the answering of a request, in the terms of Safety.lean. -/
theorem answers_of {s u : State} {r : Request} {a : Answer}
    (hq : u.engine.requests = s.engine.requests.tail) (hr : u.engine.record = s.engine.record)
    (hw : u.wire = s.wire) : s.Answers (u.answerRequest r a) r a.status a.body u.engine.linkReply := by
  obtain ⟨w, replies, e, hup, hwr⟩ := answerRequest_eq u r a
  rw [e]
  have hframe : ∀ (t : State), t.params = u.params → t.unitId = u.unitId →
      t.responseFrame r.source r.tag r.code a.status a.body =
        u.responseFrame r.source r.tag r.code a.status a.body := by
    intro t h1 h2; simp [State.responseFrame, h1, h2]
  have hres : isRestartResponse r a = (r.code == codeRestart && a.status == .ok) := rfl
  rw [hres] at hwr
  constructor
  · exact hq
  · simp only [hr, hframe, List.drop_one]
  · rfl
  · intro ho
    simp only [ho, Prod.mk.injEq] at hwr
    obtain ⟨rfl, rfl⟩ := hwr
    obtain ⟨h1, h2, h3, -⟩ := take_reply u.wire
      ⟨u.responseFrame r.source r.tag r.code a.status a.body, r.code == codeRestart && a.status == .ok⟩
    rw [hw] at h1 h2 h3
    simp only [hframe]
    rw [hw]
    exact ⟨h1, h2, h3, trivial⟩
  · intro ho
    simp only [ho, Prod.mk.injEq] at hwr
    obtain ⟨rfl, rfl⟩ := hwr
    have := (take_reply u.wire
      ⟨u.responseFrame r.source r.tag r.code a.status a.body, r.code == codeRestart && a.status == .ok⟩).2.2.2
    rw [hw] at this ⊢
    exact this
  · intro ho
    simp only [ho, Prod.mk.injEq] at hwr
    obtain ⟨rfl, rfl⟩ := hwr
    refine ⟨hw, ?_⟩
    simp only [hframe]

/-! ## Marks (R173) -/

/-- The marks of one request are all that is added to a queue that had none. -/
def Notices.MarkedBy (n : Notices) (mark : RequestMark) : Prop :=
  ∀ q ∈ n.queue, q.held = none ∨ q.held = some mark

theorem clearMarks_unmarked {n : Notices} (h : ∀ q ∈ n.queue, q.held = none) (mark : RequestMark) :
    n.clearMarks mark = n := by
  unfold Notices.clearMarks
  have : n.queue.map (fun q => if q.held = some mark then { q with held := none } else q) = n.queue := by
    conv_rhs => rw [← List.map_id n.queue]
    apply List.map_congr_left
    intro q hq
    simp [h q hq]
  rw [this]

theorem clearMark_fold {n : Notice} {c : NoticeContent} {mark : RequestMark}
    (h : n.held = none ∨ n.held = some mark) :
    (n.fold c (some mark)).map (fun q => if q.held = some mark then { q with held := none } else q) =
      (if n.held = some mark then { n with held := none } else n : Notice).fold c none := by
  obtain ⟨content, transitions, held⟩ := n
  rcases h with h | h <;> simp only at h <;> subst h <;> simp [Notice.fold] <;> congr 1 <;>
    funext content <;> simp

theorem foldQueue_clear {c : NoticeContent} {mark : RequestMark} {q : List Notice}
    (h : ∀ n ∈ q, n.held = none ∨ n.held = some mark) :
    (foldQueue c (some mark) q).map
        (·.map fun n => if n.held = some mark then { n with held := none } else n) =
      foldQueue c none (q.map fun n => if n.held = some mark then { n with held := none } else n) := by
  induction q with
  | nil => rfl
  | cons n rest ih =>
    have hn := clearMark_fold (c := c) (h n (by simp))
    have ih := ih fun m hm => h m (by simp [hm])
    simp only [foldQueue, List.map_cons]
    rw [← hn, ← ih]
    cases n.fold c (some mark) <;> simp [Function.comp_def]

/-- R173: taking a marked cause and clearing the mark later is taking it unmarked. -/
theorem take_clearMarks {n : Notices} {mark : RequestMark} (h : n.MarkedBy mark) (c : NoticeContent) :
    (n.take c (some mark)).clearMarks mark = (n.clearMarks mark).take c none := by
  have hf := foldQueue_clear (c := c) h
  unfold Notices.take
  have he : (n.clearMarks mark).enabled c = n.enabled c := by cases c <;> rfl
  rw [he]
  split
  · have hq : (n.clearMarks mark).queue =
        n.queue.map fun q => if q.held = some mark then { q with held := none } else q := rfl
    rw [hq, ← hf]
    cases foldQueue c (some mark) n.queue with
    | some q => simp [Notices.clearMarks]
    | none =>
      simp only [Option.map_none, List.length_map]
      split
      · simp [Notices.clearMarks]
      · simp [Notices.clearMarks]
  · rfl

theorem foldQueue_marked {c : NoticeContent} {mark : RequestMark} {q q' : List Notice}
    (h : ∀ n ∈ q, n.held = none ∨ n.held = some mark) (hf : foldQueue c (some mark) q = some q') :
    ∀ n ∈ q', n.held = none ∨ n.held = some mark := by
  induction q generalizing q' with
  | nil => simp [foldQueue] at hf
  | cons x rest ih =>
    simp only [foldQueue] at hf
    split at hf
    · next y hy =>
      cases hf
      intro n hn
      rcases List.mem_cons.mp hn with rfl | hn
      · simp only [Notice.fold, Option.map_eq_some_iff] at hy
        obtain ⟨content, -, rfl⟩ := hy
        exact .inr rfl
      · exact h n (by simp [hn])
    · obtain ⟨r, hr, rfl⟩ := Option.map_eq_some_iff.mp hf
      intro n hn
      rcases List.mem_cons.mp hn with rfl | hn
      · exact h _ (by simp)
      · exact ih (fun m hm => h m (by simp [hm])) hr n hn

theorem take_markedBy {n : Notices} {mark : RequestMark} (h : n.MarkedBy mark) (c : NoticeContent) :
    (n.take c (some mark)).MarkedBy mark := by
  unfold Notices.take
  split
  · split
    · next q hq => exact foldQueue_marked h hq
    · split
      · intro q hq
        rcases List.mem_append.mp hq with hq | hq
        · exact h q hq
        · simp at hq; subst hq; exact .inr rfl
      · exact h
  · exact h

/-- R173: the causes that a request raises, in order, with its marks cleared at its end. -/
theorem takes_clearMarks {n : Notices} {mark : RequestMark} (h : ∀ q ∈ n.queue, q.held = none)
    (causes : List NoticeContent) :
    (causes.foldl (fun n c => n.take c (some mark)) n).clearMarks mark = n.takeAll causes ∧
      (causes.foldl (fun n c => n.take c (some mark)) n).MarkedBy mark := by
  have key : ∀ (causes : List NoticeContent) (m : Notices), m.MarkedBy mark →
      (causes.foldl (fun n c => n.take c (some mark)) m).clearMarks mark =
        (m.clearMarks mark).takeAll causes ∧
        (causes.foldl (fun n c => n.take c (some mark)) m).MarkedBy mark := by
    intro causes
    induction causes with
    | nil => intro m hm; exact ⟨rfl, hm⟩
    | cons c rest ih =>
      intro m hm
      obtain ⟨h1, h2⟩ := ih _ (take_markedBy hm c)
      refine ⟨?_, h2⟩
      rw [List.foldl_cons, h1, take_clearMarks hm]
      rfl
  have := key causes n fun q hq => .inl (h q hq)
  rw [clearMarks_unmarked h] at this
  exact this

/-! ## A request with an effect (R156) -/

/-- A frame through two changes: what neither names is the same. -/
theorem State.Unchanged.trans {s u t : State} {l l' m : List StatePart} (h : s.Unchanged l u)
    (h' : u.Unchanged l' t) (hm : ∀ p, p ∉ m → p ∉ l ∧ p ∉ l') : s.Unchanged m t where
  flows hp := (h'.flows (hm _ hp).2).trans (h.flows (hm _ hp).1)
  pool hp := (h'.pool (hm _ hp).2).trans (h.pool (hm _ hp).1)
  wire hp := (h'.wire (hm _ hp).2).trans (h.wire (hm _ hp).1)
  link hp := (h'.link (hm _ hp).2).trans (h.link (hm _ hp).1)
  part hp := (h'.part (hm _ hp).2).trans (h.part (hm _ hp).1)
  tables hp := (h'.tables (hm _ hp).2).trans (h.tables (hm _ hp).1)
  hits hp := (h'.hits (hm _ hp).2).trans (h.hits (hm _ hp).1)
  engine hp := (h'.engine (hm _ hp).2).trans (h.engine (hm _ hp).1)
  params hp := (h'.params (hm _ hp).2).trans (h.params (hm _ hp).1)
  notices hp := (h'.notices (hm _ hp).2).trans (h.notices (hm _ hp).1)
  flowCounters hp := (h'.flowCounters (hm _ hp).2).trans (h.flowCounters (hm _ hp).1)
  deviceCounters hp := (h'.deviceCounters (hm _ hp).2).trans (h.deviceCounters (hm _ hp).1)
  epochDraws hp := (h'.epochDraws (hm _ hp).2).trans (h.epochDraws (hm _ hp).1)
  unitId := h'.unitId.trans h.unitId
  pending := h'.pending.trans h.pending

/-- R156: the state after a request whose work leaves the state u, in the terms of Safety.lean. -/
theorem execute_effect {s u : State} {r : Request} {code : Byte} {c : Instr} {named : Byte → Bool}
    {work : Request → State → Answer × State} {a : Answer} (h : s.Takes r code)
    (hc : exec c s = s.execute named work) (hn : named code = true) (hw : work r (s.begin r) = (a, u))
    (hq : u.engine.requests = s.engine.requests.tail) (hr : u.engine.record = s.engine.record)
    (hwire : u.wire = s.wire) :
    ∃ t, exec c s = .next t.finish ∧ s.Answers t r a.status a.body u.engine.linkReply ∧
      t.engine.binding = u.engine.binding ∧ t.engine.state = u.engine.state ∧
      t.notices = u.notices.clearMarks ⟨r.source, r.tag⟩ ∧ u.Unchanged [.engine, .wire, .notices] t := by
  refine ⟨u.answerRequest r a, by rw [hc, execute_of_takes h hn, hw], answers_of hq hr hwire, ?_⟩
  obtain ⟨w, replies, e, -, -⟩ := answerRequest_eq u r a
  rw [e]
  refine ⟨rfl, rfl, rfl, ?_⟩
  constructor <;> first | (intro h; simp at h; done) | (intros; rfl)

/-! ## A request that only answers (R156, R159) -/

/-- A request whose work leaves the state as it is does nothing but answer. -/
theorem answersOnly_of {s : State} {r : Request} {code : Byte} {c : Instr} {status : Status}
    {body : List Byte} {named : Byte → Bool} {work : Request → State → Answer × State}
    (h : s.Takes r code) (hc : ∀ s, exec c s = s.execute named work) (hn : named code = true)
    (hwork : work r (s.begin r) = (⟨status, body⟩, s.begin r)) : s.answersOnly c r status body := by
  refine ⟨(s.begin r).answerRequest r ⟨status, body⟩, ?_, ?_⟩
  · rw [hc, execute_of_takes h hn, hwork]
  · have ha := answers_of (s := s) (u := s.begin r) (r := r) (a := ⟨status, body⟩)
      (by simp [begin_eq]) rfl rfl
    obtain ⟨w, replies, e, -, -⟩ := answerRequest_eq (s.begin r) r ⟨status, body⟩
    rw [e] at ha ⊢
    refine ⟨ha, rfl, h.ready, clearMarks_unmarked h.unmarked _, ?_⟩
    constructor <;> first | (intro h; simp at h; done) | (intros; rfl)

/-! ## Replies (R145, R152) and written tables (R124, R125) -/

/-- R145, R152: a frame placed in a reply path. -/
theorem placeReply_replied (s : State) (origin : Origin) (item : ReplyItem) :
    s.placeReply origin item = s.replied origin item := by
  cases origin
  · simp only [State.placeReply, State.replied, State.modifyWire, WirePort.replied, WirePort.take]
    cases s.wire.transmitter with
    | sending owner bytes => simp
    | idle =>
      cases s.wire.linkUp <;> simp
      cases s.wire.managementEgress <;> simp
  · simp only [State.placeReply, State.replied, State.modifyEngine]
    split <;> rfl

/-- A table with the entries from an index replaced, as far as the table goes. -/
def setFrom {α : Type} {n : Nat} (v : Vector α n) : Nat → List α → Vector α n
  | _, [] => v
  | i, x :: rest => setFrom (v.setIfInBounds i x) (i + 1) rest

theorem setFrom_eq {α : Type} {n : Nat} (v : Vector α n) (i : Nat) (l : List α) :
    setFrom v i l = tabulate fun k : Fin n =>
      if i ≤ k.val then (l[k.val - i]?).getD (readAt v k) else readAt v k := by
  have key : ∀ (l : List α) (v : Vector α n) (i k : Nat) (hk : k < n),
      (setFrom v i l)[k] = if i ≤ k then (l[k - i]?).getD v[k] else v[k] := by
    intro l
    induction l with
    | nil => intro v i k hk; simp [setFrom]
    | cons x rest ih =>
      intro v i k hk
      rw [setFrom, ih, Vector.getElem_setIfInBounds hk]
      by_cases h1 : i = k
      · subst h1; simp
      · by_cases h2 : i ≤ k
        · have : k - i = (k - (i + 1)) + 1 := by omega
          rw [this]
          simp [h2, h1, show i + 1 ≤ k by omega]
        · simp [h2, h1, show ¬ i + 1 ≤ k by omega]
  ext k hk
  rw [key]
  simp [tabulate, readAt]

/-- R124, R125: good classification entries are written one after the other; what follows them is written on
the bank that they leave. -/
theorem writeEntries_classification (good : List (List Byte × ClassEntry)) :
    ∀ (i more : Nat) (rest : List Byte) (b : Bank),
      (∀ e ∈ good, e.1.length = 33 ∧ classEntryOfBytes e.1 = some e.2) →
      b.writeEntries .classification (good.length + more) i (good.flatMap (·.1) ++ rest) =
        ({ b with entries := setFrom b.entries i (good.map (·.2)) } : Bank).writeEntries .classification more
          (i + good.length) rest := by
  induction good with
  | nil => intro i more rest b _; simp [setFrom]
  | cons e good ih =>
    intro i more rest b h
    obtain ⟨h1, h2⟩ := h e (by simp)
    have hlen : (e :: good).length + more = (good.length + more) + 1 := by simp; omega
    rw [hlen, Bank.writeEntries, List.flatMap_cons, List.append_assoc, TableName.entryBytes,
      List.take_left' h1, List.drop_left' h1]
    simp only [Bank.writeEntry, h2, Option.map_some]
    rw [ih _ _ _ _ fun e he => h e (by simp [he])]
    simp [setFrom, Nat.add_assoc, Nat.add_comm 1]

/-- R124, R125: the same of good profiles. -/
theorem writeEntries_profile (good : List (List Byte × Profile)) :
    ∀ (i more : Nat) (rest : List Byte) (b : Bank),
      (∀ e ∈ good, e.1.length = 15 ∧ profileOfBytes e.1 = some e.2) →
      b.writeEntries .profile (good.length + more) i (good.flatMap (·.1) ++ rest) =
        ({ b with profiles := setFrom b.profiles i (good.map (·.2)) } : Bank).writeEntries .profile more
          (i + good.length) rest := by
  induction good with
  | nil => intro i more rest b _; simp [setFrom]
  | cons e good ih =>
    intro i more rest b h
    obtain ⟨h1, h2⟩ := h e (by simp)
    have hlen : (e :: good).length + more = (good.length + more) + 1 := by simp; omega
    rw [hlen, Bank.writeEntries, List.flatMap_cons, List.append_assoc, TableName.entryBytes,
      List.take_left' h1, List.drop_left' h1]
    simp only [Bank.writeEntry, h2, Option.map_some]
    rw [ih _ _ _ _ fun e he => h e (by simp [he])]
    simp [setFrom, Nat.add_assoc, Nat.add_comm 1]

end Sys2Proof.Machine
end

