-- ==== Sys2Proof/Tests/Slice0.lean ====
section
/-! SUPPORT. Tests: values that the manual prints, one step of each kind of command on a small state, what
WellFormed refuses, and for each obligation with hypotheses a state and operands that meet them. -/

namespace Sys2Proof.Tests

set_option Elab.async false

open Machine

/-! ## Values that the manual prints -/

/-- R180: the CRC of the ASCII digits 123456789 is 0xCBF43926, sent least significant byte first. -/
theorem test_crc_of_nine_digits :
    crc32 [0x31, 0x32, 0x33, 0x34, 0x35, 0x36, 0x37, 0x38, 0x39] = 0xCBF43926 ∧
      crcBytes [0x31, 0x32, 0x33, 0x34, 0x35, 0x36, 0x37, 0x38, 0x39] = [0x26, 0x39, 0xF4, 0xCB] := by
  decide +kernel

/-- 0.6 "Sequence numbers": the distance from 4090 to 5 is 11, from 5 to 4090 it is 4085. -/
theorem test_sequence_distance :
    seqDistance 4090 5 = 11 ∧ seqDistance 5 4090 = 4085 ∧ seqBefore 4090 5 = true ∧
      seqBefore 5 4090 = false := by decide

/-- Tables 11.1 and 11.2, written out byte by byte: an ADVANCE of flow 5 for sequence 0x0ABC. -/
theorem test_advance_bytes :
    readBlock [0x22, 0x00, 0x12, 0x34, 0x56, 0x78, 0x00, 0x03, 0x05, 0x0A, 0xBC] =
      some ⟨0x12345678, .advance 5 0xABC⟩ := by decide +kernel

/-- Table 11.2 and R179: a HELLO with a seen epoch, and the same bytes with the flag clear, whose payload is
then too long. -/
theorem test_hello_bytes :
    readBlock [0x01, 0x01, 0, 0, 0, 7, 0, 10, 0, 6, 4, 0, 0, 1, 0, 0, 0, 8] =
        some ⟨7, .hello 0x000604000001 (some 8)⟩ ∧
      readBlock [0x01, 0x00, 0, 0, 0, 7, 0, 10, 0, 6, 4, 0, 0, 1, 0, 0, 0, 8] = none := by
  decide +kernel

/-- R179: an OPEN's window is 1..64, a flow number 0..63, and a STATUS has bit 0 of its map clear. -/
theorem test_malformed_blocks :
    readBlock [0x10, 0, 0, 0, 0, 1, 0, 3, 63, 64, 1] = some ⟨1, .openFlow 63 64 .arrival⟩ ∧
      readBlock [0x10, 0, 0, 0, 0, 1, 0, 3, 63, 65, 1] = none ∧
      readBlock [0x10, 0, 0, 0, 0, 1, 0, 3, 64, 64, 1] = none ∧
      readBlock [0x21, 0, 0, 0, 0, 1, 0, 11, 5, 0, 9, 0, 0, 0, 0, 0, 0, 0, 1] = none ∧
      readBlock [0x40, 0, 0, 0, 0, 1, 0, 0] = none := by decide +kernel

/-- Table 11.10: statuses, causes, outcomes and pending blocks with their codes. -/
theorem test_codes :
    Status.code .inProgress = 14 ∧ Status.code .badEntry = 6 ∧ FlowCause.code .localLeave = 15 ∧
      FlowCause.code .closeUnconfirmed = 9 ∧ LinkCause.code .partnerLeft = 8 ∧
      Completion.code .unconfirmed = 5 ∧ detailCode (some .partnerLeft) = 8 ∧
      pendingBlockCode (some (.openAck .noBuffers)) = 5 ∧ pendingBlockCode (some .abort) = 8 := by decide

/-- No row of the table gives bits, so no word spells a command. -/
theorem test_no_word_spells_a_command :
    decodeTableWord 0 0 = none ∧ State.reset.withFetchWord 16 0xFFFF = State.reset := ⟨rfl, rfl⟩

/-! ## What WellFormed refuses -/

theorem test_wellFormed_short_reception :
    Instr.wellFormed (.wireFrameReception [1, 2, 3] false) = false ∧
      Instr.wellFormed (.wireFrameReception [1, 2, 3, 4] false) = true := by decide

theorem test_wellFormed_empty_delivery :
    Instr.wellFormed (.linkBlockDelivery [] false) = false ∧
      Instr.wellFormed (.linkBlockDelivery [1] true) = true := by decide

theorem test_wellFormed_open_window :
    BlockBody.wellFormed (.openFlow 0 0 .inOrder) = false ∧
      BlockBody.wellFormed (.openFlow 0 65 .inOrder) = false ∧
      BlockBody.wellFormed (.openFlow 0 64 .inOrder) = true := by decide

theorem test_wellFormed_frames :
    BlockBody.wellFormed (.data 0 0 (List.replicate 59 0)) = false ∧
      BlockBody.wellFormed (.data 0 0 (List.replicate 60 0)) = true ∧
      BlockBody.wellFormed (.bulk 0 (List.replicate 1523 0)) = false ∧
      BlockBody.wellFormed (.bulk 0 (List.replicate 1522 0)) = true := by decide +kernel

theorem test_wellFormed_status_map :
    BlockBody.wellFormed (.status 0 0 1 none) = false ∧
      BlockBody.wellFormed (.status 0 0 2 none) = true := by decide

/-! ## Small states -/

/-- A profile for flow 5: RELIABLE, W = 8, reserve 2, cap 4, retry limit 1, the rest as at power-on. -/
def profile5 : Profile :=
  { Profile.initial with mode := .reliable, window := 8, reserve := 2, cap := 4, retryLimit := 1 }

/-- A bank with one entry, EtherType 0x0800 to flow 5 with fallback DISCARD, and a profile for flow 5. -/
def bank5 (p : Profile) : Bank :=
  { Bank.initial with
    entries := writeAt Bank.initial.entries 0 { ClassEntry.initial with
      valid := true, etherType := some 0x0800, action := .flow 5, fallback := some .discard }
    profiles := writeAt Bank.initial.profiles 5 p }

/-- A PARTNERED bridge (own epoch 1, partner epoch 2, partner unit 9) with a context and a profile for flow
5, which holds 2 buffers and has 2 reserved. -/
def small (p : Profile) (fl : Flow) : State :=
  { State.reset with
    flows := writeAt State.reset.flows 5 fl
    pool := { State.reset.pool with
      free := 510
      held := writeAt State.reset.pool.held 5 2
      reservation := writeAt State.reset.pool.reservation 5 2 }
    tables := { State.reset.tables with bankA := bank5 p }
    part := { State.reset.part with
      state := .partnered, ownEpoch := some 1, partnerEpoch := some 2, partnerUnit := some 9
      silenceTimer := .running 1000, keepaliveTimer := .running 250 } }

/-- A context in a state, otherwise as at power-on. -/
def inState (state : FlowState) : Flow := { Flow.initial 100 with state := state }

/-- An OPEN flow with two entries, of sequences 0 and 1, and one buffer more waiting. -/
def sending5 (first : EntryCondition) (transmissions : Nat) : Flow :=
  { inState .opened with
    sendQueue := [[7]], next := 2, txOrder := [0, 1]
    window := [⟨0, first, transmissions⟩, ⟨1, .outstanding [6], 1⟩]
    retxTimer := .running 30 }

/-- A frame of 60 bytes with EtherType 0x0800, and one with an EtherType that no entry names. -/
def frame0800 : Frame := List.replicate 12 2 ++ [0x08, 0x00] ++ List.replicate 46 0

def frame0900 : Frame := List.replicate 12 2 ++ [0x09, 0x00] ++ List.replicate 46 0

def withPart (s : State) (p : Partnership) : State := { s with part := p }

def withLink (s : State) (l : LinkPort) : State := { s with link := l }

/-- A partnership in a state, with own epoch 1, partner epoch 2, partner unit 9, and hold, join and silence timers that
have run out. -/
def partIn (state : LinkState) : Partnership :=
  { Partnership.initial with
    state := state, ownEpoch := some 1, partnerEpoch := some 2, partnerUnit := some 9
    holdTimer := .running 0, joinTimer := .running 0, silenceTimer := .running 0 }

/-- The state with one block waiting for the reliability engine. -/
def hearing (s : State) (b : BlockBody) : State := withLink s { s.link with toFlows := [⟨2, b⟩] }

/-- The state with a grant in transit. -/
def granting (s : State) (g : Grant) : State :=
  withLink s { s.link with transmitter := .slotOpen, slotSignal := true, grant := some g }

/-- A request of the bound manager, of address 7, by the wire. -/
def request (code : Byte) (body : List Byte) : Request := ⟨7, .wire, 3, code, body⟩

/-- The state with one request queued and its manager bound. -/
def asking (s : State) (code : Byte) (body : List Byte) : State :=
  { s with engine := { s.engine with
    requests := [request code body], binding := .bound 7 .wire 600 600000 } }

/-- R156: such a request is next to be executed. -/
theorem asking_takes (p : Profile) (fl : Flow) (code : Byte) (body : List Byte) :
    (asking (small p fl) code body).Takes (request code body) code :=
  ⟨rfl, rfl, rfl, rfl, .inr (.inr rfl), by intro n hn; cases hn⟩

/-- R156: and so it is with another partnership state. -/
theorem asking_takes_part (p : Profile) (fl : Flow) (part : Partnership) (code : Byte) (body : List Byte) :
    (asking (withPart (small p fl) part) code body).Takes (request code body) code :=
  ⟨rfl, rfl, rfl, rfl, .inr (.inr rfl), by intro n hn; cases hn⟩

/-- R88: a block with the partner epoch is one that the partnership accepts. -/
theorem hearing_receives (p : Profile) (fl : Flow) (b : BlockBody) :
    (hearing (small p fl) b).Receives ⟨2, b⟩ := ⟨rfl, rfl, rfl⟩

/-- The state after a command that answers next, and the state given otherwise. -/
def after (c : Instr) (s : State) : State :=
  match exec c s with
  | .next t => t
  | .fault _ => s
  | .refused _ => s

/-! ## One step of each kind (expected values by hand from the rules named) -/

/-- R48, R71: a reset ends the partnership and the flow. -/
theorem test_power_on_reset :
    (after .powerOnReset (small profile5 (inState .opened))).part.state = .silent ∧
      ((after .powerOnReset (small profile5 (inState .opened))).flow 5).state = .closed := by decide +kernel

/-- R2, R96, R106: a frame of flow 5 takes one of the 510 free buffers. -/
theorem test_wire_frame_to_flow :
    let t := after (.wireFrameReception (withCheck frame0800) false) (small profile5 (inState .opened))
    (t.flow 5).sendQueue = [frame0800] ∧ t.pool.free = 509 ∧ t.held 5 = 3 ∧ readAt t.hits 0 = 1 := by
  decide +kernel

/-- R103: the same frame with a receive error is counted and has no other effect. -/
theorem test_wire_frame_bad :
    let t := after (.wireFrameReception (withCheck frame0800) true) (small profile5 (inState .opened))
    t.deviceCounters.wireRxBad = 1 ∧ t.pool.free = 510 := by decide +kernel

/-- R143, R144: a delivered CLOSE is counted and waits for its flow. -/
theorem test_link_block_delivery :
    let t := after (.linkBlockDelivery (formBlock ⟨2, .close 5⟩) false) (small profile5 (inState .opened))
    t.deviceCounters.blocksReceived = 1 ∧ t.link.toFlows = [⟨2, .close 5⟩] := by decide +kernel

/-- R29, R31, R37: DATA at E passes E, takes a buffer and is placed on the wire egress. -/
theorem test_data_in_order :
    let t := after .dataReceived (hearing (small profile5 (inState .opened)) (.data 5 0 frame0800))
    (t.flow 5).expected = 1 ∧ (readAt t.flowCounters 5).rxDelivered = 1 ∧ t.held 5 = 3 ∧
      readAt t.wire.classQueues 0 = [⟨.flow 5, frame0800⟩] := by decide +kernel

/-- R40 with ack every 1: the accepted DATA sets status pending; R41 starts the timer with 10 ms. -/
theorem test_data_sets_status_pending :
    let t := after .dataReceived (hearing (small { profile5 with ackEvery := 1 } (inState .opened))
      (.data 5 0 frame0800))
    (t.flow 5).statusPending = true ∧ (t.flow 5).ackTimer = .running 10 := by decide +kernel

/-- R38: an ADVANCE two ahead of E leaves a SKIP member and no buffer is taken. -/
theorem test_advance_ahead :
    let t := after .advanceReceived (hearing (small profile5 (inState .opened)) (.advance 5 2))
    (t.flow 5).reorder = [⟨2, .skip⟩] ∧ (t.flow 5).expected = 0 ∧ t.pool.free = 510 := by decide +kernel

/-- R12, R13, R16: A = 2 acknowledges both entries; their buffers return and the timer stops. -/
theorem test_status_acknowledges :
    let t := after .statusReceived (hearing (small profile5 (sending5 (.outstanding [5]) 1))
      (.status 5 2 0 none))
    (t.flow 5).window = [] ∧ (t.flow 5).lower = 2 ∧ t.pool.free = 512 ∧ (t.flow 5).retxTimer = .stopped := by
  decide +kernel

/-- R14, R15: A = 0, map bit 1 and high mark 1: entry 1 is SACKED, entry 0 sent before it is lost. -/
theorem test_status_selective :
    let t := after .statusReceived (hearing (small profile5 (sending5 (.outstanding [5]) 1))
      (.status 5 0 2 (some 1)))
    (t.flow 5).window = [⟨0, .pendingRetx [5], 1⟩, ⟨1, .sacked [6], 1⟩] ∧
      (t.flow 5).retxTimer = .stopped := by decide +kernel

/-- R17, R18: the oldest unanswered entry is lost and the current RTO doubles from 100 to 200. -/
theorem test_retransmission_timer :
    let s := small profile5 { sending5 (.outstanding [5]) 1 with retxTimer := .running 0 }
    let t := after (.retransmissionTimerExpiry 5) s
    (t.flow 5).window = [⟨0, .pendingRetx [5], 1⟩, ⟨1, .outstanding [6], 1⟩] ∧ (t.flow 5).rto = 200 ∧
      (t.flow 5).retxTimer = .running 200 := by decide +kernel

/-- R24, R90: a STATUS that advances L restarts the timer, and a KEEPALIVE the silence timer; the expiry that
waited behind each does not occur. -/
theorem test_forestalled_expiries :
    let s := small profile5 { sending5 (.outstanding [5]) 1 with retxTimer := .running 0 }
    let t := after .statusReceived (hearing s (.status 5 1 0 none))
    let u := after .keepaliveReceived (withLink (withPart s { s.part with silenceTimer := .running 0 })
      { s.link with toPartnership := [⟨2, .keepalive⟩] })
    (t.flow 5).retxTimer = .running 100 ∧ after (.retransmissionTimerExpiry 5) t = t ∧
      u.part.silenceTimer = .running 1000 ∧ after .silenceTimerExpiry u = u := by decide +kernel

/-- R9: new data takes sequence N = 2. -/
theorem test_data_grant_new :
    let t := after .dataGrant (granting (small profile5 (sending5 (.outstanding [5]) 1)) (.data 5 0))
    (t.flow 5).next = 3 ∧ (t.flow 5).txOrder = [0, 1, 2] ∧ (t.flow 5).sendQueue = [] ∧
      t.link.transmitter = .sending .plain (formBlock ⟨1, .data 5 2 [7]⟩) := by decide +kernel

/-- R20: the lost frame is sent again and moves to the end of the list. -/
theorem test_data_grant_again :
    let t := after .dataGrant (granting (small profile5 (sending5 (.pendingRetx [5]) 1)) (.data 5 0))
    (t.flow 5).txOrder = [1, 0] ∧ (t.flow 5).window.head? = some ⟨0, .outstanding [5], 2⟩ ∧
      (readAt t.flowCounters 5).dataRetransmitted = 1 := by decide +kernel

/-- R21: with transmissions 2 at retry limit 1 under FAIL the flow fails and owes an ABORT. -/
theorem test_data_grant_exhausted :
    let t := after .dataGrant (granting (small profile5 { sending5 (.pendingRetx [5]) 2 with sendQueue := [] })
      (.data 5 0))
    (t.flow 5).state = .failed ∧ (t.flow 5).failureCause = some .retryExhausted ∧
      (t.flow 5).pendingBlock = some .abort ∧ t.link.lifecycleOrder = [5] ∧ t.pool.free = 512 := by
  decide +kernel

/-- R43: E = 0 with a member at 2: bit 2 of the map, high mark 2. -/
theorem test_status_grant :
    let fl := { inState .opened with statusPending := true, reorder := [⟨2, .skip⟩] }
    (after .statusGrant (granting (small profile5 fl) (.status 5))).link.transmitter =
      .sending .plain (formBlock ⟨1, .status 5 0 4 (some 2)⟩) := by decide +kernel

/-- R53: an OPEN is taken, for the first time. -/
theorem test_lifecycle_grant :
    let fl := { inState .opening with pendingBlock := some (.openFlow 8 .inOrder) }
    let t := after .lifecycleGrant (granting (small profile5 fl) (.lifecycle 5))
    (t.flow 5).attempts = 1 ∧ (t.flow 5).openTimer = .running 250 ∧ (t.flow 5).pendingBlock = none := by
  decide +kernel

/-- R53: the fourth OPEN was not answered. -/
theorem test_open_timer_last :
    let t := after (.openTimerExpiry 5) (small profile5 { inState .opening with
      openTimer := .running 0, attempts := 4 })
    (t.flow 5).state = .closed ∧ readAt t.pool.reservation 5 = 0 := by decide +kernel

/-- R54: an OPEN that matches opens the flow and owes OPEN_ACK(accept). -/
theorem test_open_received :
    let t := after .openReceived (hearing (small profile5 (inState .closed)) (.openFlow 5 8 .inOrder))
    (t.flow 5).state = .opened ∧ (t.flow 5).pendingBlock = some (.openAck .accept) := by decide +kernel

/-- R58, R60: a CLOSE at an OPEN flow with nothing to send closes it, and a CLOSE_ACK is owed. -/
theorem test_close_received :
    let t := after .closeReceived (hearing (small profile5 (inState .opened)) (.close 5))
    (t.flow 5).state = .closed ∧ (t.flow 5).pendingBlock = some .closeAck := by decide +kernel

/-- R133, R134: a HELLO is offered, so a signalled slot is granted to the partnership controller. -/
theorem test_slot_signalled :
    let s := small profile5 (inState .opened)
    (after .slotSignalled (withPart s { s.part with helloPending := true })).link.grant =
      some .partnership := by decide +kernel

/-- R74: a HELLO with the own epoch 1, the unit identifier and the seen epoch 2. -/
theorem test_partnership_grant :
    let s := granting (small profile5 (inState .opened)) .partnership
    (after .partnershipGrant (withPart s { s.part with helloPending := true })).link.transmitter =
      .sending .plain (formBlock ⟨1, .hello State.reset.unitId (some 2)⟩) := by decide +kernel

/-- R81, R66: the silence timer runs out: LOST, and the OPEN flow is suspended. -/
theorem test_silence :
    let s := small profile5 (inState .opened)
    let t := after .silenceTimerExpiry (withPart s { s.part with silenceTimer := .running 0 })
    t.part.state = .lost ∧ (t.flow 5).suspended = true ∧ t.part.holdTimer = .running 30000 ∧
      t.notices.queue.map (·.content) = [.linkState .partnered .lost .silence] := by decide +kernel

/-- R52, R152, Table 11.3: FLOW_OPEN is answered ACCEPTED (1) with its tag 3 and code 0x20. -/
theorem test_flow_open :
    let t := after .flowOpen (asking (small profile5 (inState .closed)) 0x20 [5])
    (t.flow 5).state = .opening ∧ (t.flow 5).deferred = some ⟨.flowOpen, 3⟩ ∧
      (t.wire.managementEgress.map fun r => (slice r.frame 14 6)).head? = some [1, 2, 0, 3, 0x20, 1] := by
  decide +kernel

/-- R73: LINK_JOIN in SILENT makes a HELLO pending and starts the timers. -/
theorem test_link_join :
    let t := after .linkJoin (asking (withPart (small profile5 (inState .closed)) Partnership.initial) 0x30 [])
    t.part.state = .joining ∧ t.part.helloPending = true ∧ t.part.joinTimer = .running 60000 ∧
      t.part.deferredJoin = some 3 := by decide +kernel

/-- R130: a COMMIT at generation 0 makes bank B active. -/
theorem test_commit :
    let s := asking (withPart State.reset Partnership.initial) 0x13 [0, 0, 0, 0]
    (after .commit s).tables.generation = 1 ∧ (after .commit s).tables.active = .b := by decide +kernel

/-- R124: WRITE_TABLE of the default action DISCARD, and one with a class above 3. -/
theorem test_write_table :
    (after .writeTable (asking State.reset 0x11 [2, 0, 1, 0, 0])).tables.bankB.default = .discard ∧
      (after .writeTable (asking State.reset 0x11 [2, 0, 1, 1, 4])).tables.bankB.default = .bulk 0 := by
  decide +kernel

/-- R163: SET_PARAMS with presence 0x80 replaces the low-pool threshold only. -/
theorem test_set_params :
    let t := after .setParams (asking State.reset 0x41
      ([0x80] ++ List.replicate 22 0 ++ [1, 44]))
    t.params = { State.reset.params with poolLow := 300 } := by decide +kernel

/-- R165: RESTART awaits the departure of its response. -/
theorem test_restart :
    (after .restart (asking State.reset 0x44 [])).engine.state = .awaitResponse := by decide +kernel

/-- R153: the lease runs out. -/
theorem test_lease :
    let s := asking State.reset 0x01 []
    let late := { s with engine := { s.engine with binding := .bound 7 .wire 600 0 } }
    (after .leaseTimerExpiry late).engine.binding = .unbound ∧ after .leaseTimerExpiry s = s := by
  decide +kernel

/-- Log entry 6: with no command waiting one millisecond passes. -/
theorem test_tick :
    (small profile5 (sending5 (.outstanding [5]) 1)).tick.part.silenceTimer = .running 999 ∧
      ((small profile5 (sending5 (.outstanding [5]) 1)).tick.flow 5).retxTimer = .running 29 := by
  decide +kernel

/-! ## The hypotheses of the obligations: the machine as a whole -/

/-- A state for the laws: flow 5 is OPEN with two frames queued, and a slot is signalled. -/
def lawful : State :=
  { small profile5 { inState .opened with sendQueue := [frame0800, frame0800] } with
    pending := [.slotSignalled] }

theorem lawful_steps : ∃ t, step lawful = .next t := ⟨_, rfl⟩

theorem lawful_flow (f : FlowId) : lawful.flow f =
    if 5 = f then { inState .opened with sendQueue := [frame0800, frame0800] } else Flow.initial 100 := by
  change readAt (writeAt State.reset.flows 5 _) f = _
  rw [readAt_writeAt]
  split
  · rfl
  · exact readAt_replicate _ _

theorem test_witness_PoolLawsKept : lawful.PoolLaws ∧ ∃ t, step lawful = .next t :=
  ⟨⟨by decide +kernel, by decide +kernel, by decide +kernel, by decide +kernel, by decide +kernel⟩, lawful_steps⟩

theorem lawful_whole : lawful.WindowLaws := by
  refine ⟨fun f => ?_, by intro bank; cases bank <;> decide +kernel⟩
  rw [lawful_flow]
  split
  · constructor <;> simp [inState, Flow.initial, Flow.windowWhole, Flow.orderWhole, Flow.reorderWhole,
      Flow.inUse, Flow.anyInFlight, Timer.isRunning]
  · constructor <;> simp [Flow.initial, Flow.orderWhole, Flow.reorderWhole, Flow.inUse, Flow.atRest]

theorem test_witness_WindowLawsKept : lawful.WindowLaws ∧ ∃ t, step lawful = .next t :=
  ⟨lawful_whole, lawful_steps⟩

theorem test_witness_BuffersAccountedKept :
    lawful.WindowLaws ∧ lawful.BuffersAccounted ∧ ∃ t, step lawful = .next t :=
  ⟨lawful_whole, ⟨by decide +kernel, by decide +kernel, by decide +kernel⟩, lawful_steps⟩

theorem test_witness_QueueBoundsKept : lawful.QueueBounds ∧ ∃ t, step lawful = .next t :=
  ⟨⟨by decide, by decide, by decide, by decide, by decide, by decide⟩, lawful_steps⟩

theorem test_witness_PartnershipLawsKept : lawful.PartnershipLaws ∧ ∃ t, step lawful = .next t := by
  refine ⟨⟨by simp [Partnership.ordered, lawful, small, Timer.isRunning, State.reset, State.powerOn,
    Partnership.initial], fun f => ?_⟩, lawful_steps⟩
  rw [lawful_flow]
  split <;> rfl

theorem test_witness_LifecycleLawsKept : lawful.LifecycleLaws ∧ ∃ t, step lawful = .next t :=
  ⟨⟨by decide +kernel, by decide +kernel⟩, lawful_steps⟩

theorem test_witness_NoticeLawsKept : lawful.NoticeLaws ∧ ∃ t, step lawful = .next t :=
  ⟨⟨by decide, by decide, rfl⟩, lawful_steps⟩

theorem test_witness_ConfigurationLawsKept : lawful.ConfigurationLaws ∧ ∃ t, step lawful = .next t :=
  ⟨⟨by intro bank; cases bank <;> decide +kernel,
    by intro bank; cases bank <;> unfold ClassEntry.inRange <;> decide +kernel,
    by intro bank; cases bank <;> decide +kernel, by decide +kernel, by unfold Params.sound; decide,
    by decide⟩, lawful_steps⟩

theorem test_witness_EmptyQueueTick :
    let s := small profile5 { inState .opened with suspended := true }
    s.pending = [] ∧ (s.flow 5).suspended = true ∧ (s.flow 6).suspended = false := by decide +kernel

theorem test_witness_FinishReleasesAndSelects :
    (asking State.reset 0x01 []).engine.binding = .bound 7 .wire 600 600000 ∧
      State.reset.engine.binding = .unbound ∧ State.reset.link.transmitter ≠ .slotOpen := by decide

/-- R174: one notice of each kind, the first of them held; a path with no room; a wire port that begins a frame. -/
theorem test_witness_FinishReleasesAndSelects_release :
    let kinds : List NoticeContent := [.linkState .silent .joining .request,
      .flowState 5 .closed .opening .request, .completion 3 0x20 .refused (some .noBuffers), .poolLow 511]
    let queue := kinds.map fun c => (⟨c, c.firstTransitions, none⟩ : Notice)
    let first : Notice := ⟨.poolLow 9, some 1, some ⟨7, 3⟩⟩
    let s := { asking State.reset 0x01 [] with
      notices := { State.reset.notices with queue := first :: queue }
      wire := { WirePort.initial with linkUp := true } }
    let full := { s with wire := { s.wire with managementEgress := List.replicate 4 ⟨[1], false⟩ } }
    let t := s.finish
    (s.engine.binding = .bound 7 .wire 600 600000 ∧ s.pathRoom 4 2 .wire = true ∧
      (∀ m ∈ [first], m.held ≠ none) ∧ (∀ m ∈ queue, m.held = none)) ∧
    (full.pathRoom 4 2 .wire = false ∧ full.finish.notices = full.notices) ∧
    (t.notices.queue = [first] ∧ t.wire.managementEgress.length = 4 ∧
      (t.wire.managementEgress.map fun i => (slice i.frame 15 5)) =
        [[3, 0, 0, 0, 2], [3, 0, 0, 0, 1], [3, 0, 3, 0x20, 3], [3, 0, 0, 0, 4]] ∧
      (t.wire.managementEgress.map fun i => (slice i.frame 28 7)) =
        [[0, 0, 1, 0, 1, 1, 0], [0, 0, 1, 5, 0, 1, 1], [0, 0, 0, 1, 3, 0, 0], [0, 0, 1, 1, 255, 0, 0]]) := by
  decide +kernel

/-! ## The hypotheses: encodings -/

theorem test_witness_LinkBlockRoundTrip :
    BlockBody.wellFormed (.openFlow 63 64 .arrival) = true ∧
      BlockBody.wellFormed (.data 63 4095 frame0800) = true ∧
      BlockBody.wellFormed (.status 0 4095 (BitVec.allOnes 64 - 1) (some 0)) = true := by decide +kernel

/-- R143, R179: a CLOSE of flow 5 that reads, and the same bytes with flag bit 0, with a flow of 64, or with a byte more
than its payload length says. -/
theorem test_witness_LinkBlockRoundTrip_reads :
    readBlock [0x12, 0, 0, 0, 0, 2, 0, 1, 5] = some ⟨2, .close 5⟩ ∧
      readBlock [0x12, 1, 0, 0, 0, 2, 0, 1, 5] = none ∧ readBlock [0x12, 0, 0, 0, 0, 2, 0, 1, 64] = none ∧
      readBlock [0x12, 0, 0, 0, 0, 2, 0, 1, 5, 0] = none := by decide +kernel

theorem test_witness_TableEntriesRoundTrip :
    Profile.inRange { Profile.initial with
      window := 64, reserve := 32, cap := 256, retryLimit := 15, rtoBase := 2000, backoffLimit := 5
      ackEvery := 32, ackDelay := 100 } = true ∧
    fallbackFits (.flow 63) (some (.bulk 3)) = true ∧ fallbackFits .discard none = true ∧
    ((7 : BitVec 3), (7 : BitVec 3)).1 ≤ ((7 : BitVec 3), (7 : BitVec 3)).2 ∧
    (⟨127, [(1, 2), (3, 4), (5, 6), (7, 8)]⟩ : PayloadPattern).offset ≤ 127 ∧
    (⟨127, [(1, 2), (3, 4), (5, 6), (7, 8)]⟩ : PayloadPattern).bytes.length ≤ 4 := by decide

theorem test_witness_ManagementFrameReadsBack :
    1 ≤ kindRequest ∧ kindNotice ≤ 3 ∧ (List.replicate 65535 (0 : Byte)).length < 65536 := by
  rw [List.length_replicate]; decide

/-! ## The hypotheses: the wire port -/

theorem test_witness_BadAndUnmatchedFrames_bad :
    checkHolds [1, 2, 3] = false ∧ (checkedPart (List.replicate 63 0)).length < 60 ∧
      1522 < (checkedPart (List.replicate 1527 0)).length := by
  refine ⟨by decide, ?_, ?_⟩ <;> rw [checkedPart, List.length_take, List.length_replicate] <;> decide

theorem test_witness_BadAndUnmatchedFrames_unmatched :
    let s := small profile5 (inState .closed)
    let r := withCheck frame0900
    receptionGood r false = true ∧ s.isManagement (readFrame (checkedPart r)) = false ∧
      s.tables.activeBank.Undecided (readFrame (checkedPart r)) ∧
      s.tables.activeBank.default = .bulk 0 ∧ s.part.state = .partnered ∧
      s.pool.bulkHeld < s.params.bulkCap ∧ 1 ≤ s.pool.sharedFree ∧ s.engine.executing = none := by
  simp only [← classify_eq_none_iff]
  decide +kernel

/-- A default action DISCARD; and BULK with the bulk cap reached, or without a partner. -/
theorem test_witness_BadAndUnmatchedFrames_dropped :
    let r := withCheck frame0900
    let s := small profile5 (inState .closed)
    let discards := { s with tables := { s.tables with bankA := { bank5 profile5 with default := .discard } } }
    let full := { s with pool := { s.pool with bulkHeld := 32 } }
    let alone := withPart s { s.part with state := .lost }
    (discards.isManagement (readFrame (checkedPart r)) = false ∧
      discards.tables.activeBank.Undecided (readFrame (checkedPart r)) ∧
      discards.tables.activeBank.default = .discard) ∧
    (full.tables.activeBank.default = .bulk 0 ∧ ¬ full.HasBulkRoom ∧ ¬ alone.HasBulkRoom) := by
  simp only [← classify_eq_none_iff]
  unfold State.HasBulkRoom
  decide +kernel

theorem test_witness_FlowFrameTakenOrDiverted :
    let s := small profile5 (inState .opened)
    let u := small profile5 (inState .draining)
    let r := withCheck frame0800
    receptionGood r false = true ∧ s.isManagement (readFrame (checkedPart r)) = false ∧
      s.tables.activeBank.classify (readFrame (checkedPart r)) = some 0 ∧
      (readAt s.tables.activeBank.entries 0).action = .flow 5 ∧ (s.flow 5).state = .opened ∧
      s.held 5 < (s.profile 5).cap ∧ 1 ≤ s.pool.sharedFree ∧ s.engine.executing = none ∧
      u.tables.activeBank.classify (readFrame (checkedPart r)) = some 0 ∧
      (readAt u.tables.activeBank.entries 0).fallback = some .discard ∧ (u.flow 5).state ≠ .opened := by
  decide +kernel

/-- R104, R107: a frame tagged with priority 5 and VLAN 9; a priority range that ends at 5 and one that begins at 6;
and an untagged frame, which no range and no VLAN ID takes. -/
theorem test_witness_FlowFrameTakenOrDiverted_tagged :
    let v := readFrame (List.replicate 12 2 ++ [0x81, 0, 0xA0, 9, 0x08, 0, 7])
    let u := readFrame (List.replicate 12 2 ++ [0x08, 0, 7])
    let e := { ClassEntry.initial with valid := true }
    (v.tag = some (5, 9) ∧ v.etherType = 0x0800 ∧ v.payload = [7] ∧ u.tag = none ∧ u.payload = [7]) ∧
    ({ e with priority := some (4, 5), vlan := some (.id 9) } : ClassEntry).Matches v ∧
    ¬ ({ e with priority := some (6, 7) } : ClassEntry).Matches v ∧
    ¬ ({ e with priority := some (0, 7) } : ClassEntry).Matches u ∧
    ¬ ({ e with vlan := some (.id 9) } : ClassEntry).Matches u ∧ ¬ ClassEntry.initial.Matches u ∧ e.Matches u := by
  simp only [← classEntry_holds_iff]
  decide +kernel

/-- R107: a pattern that ends with the payload, one that reaches beyond it by a byte, and a mask that leaves the bit
that differs untested. -/
theorem test_witness_FlowFrameTakenOrDiverted_pattern :
    let v := readFrame (List.replicate 12 2 ++ [0x08, 0, 1, 2, 3])
    let e := fun offset bytes => { ClassEntry.initial with valid := true, pattern := some ⟨offset, bytes⟩ }
    (e 1 [(2, 0xFF), (3, 0xFF)]).Matches v ∧ ¬ (e 2 [(3, 0xFF), (0, 0)]).Matches v ∧
      ¬ (e 1 [(2, 0xFF), (1, 0xFF)]).Matches v ∧ (e 1 [(2, 0xFF), (1, 0xFD)]).Matches v := by
  simp only [← classEntry_holds_iff]
  decide +kernel

/-- An OPEN flow at its cap; a fallback BULK; an entry of action DISCARD and one of action BULK; each of the
last three with and without room on the bulk path. -/
theorem test_witness_FlowFrameTakenOrDiverted_bulk :
    let r := withCheck frame0800
    let full := small { profile5 with cap := 2 } (inState .opened)
    let acts := fun (action : EntryAction) (fallback : Option PlainAction) (held : Nat) =>
      let s := small profile5 (inState .failed)
      { s with
        pool := { s.pool with bulkHeld := held }
        tables := { s.tables with bankA := { bank5 profile5 with
          entries := writeAt Bank.initial.entries 127 { ClassEntry.initial with
            valid := true, etherType := some 0x0800, action := action, fallback := fallback } } } }
    (full.tables.activeBank.classify (readFrame (checkedPart r)) = some 0 ∧
      (readAt full.tables.activeBank.entries 0).action = .flow 5 ∧ (full.flow 5).state = .opened ∧
      ¬ full.HasBufferFor 5) ∧
    (∀ held ∈ [31, 32], (acts (.flow 5) (some (.bulk 3)) held).tables.activeBank.classify
        (readFrame (checkedPart r)) = some 127 ∧
      ((acts (.flow 5) (some (.bulk 3)) held).flow 5).state ≠ .opened ∧
      (readAt (acts (.flow 5) (some (.bulk 3)) held).tables.activeBank.entries 127).fallback =
        some (.bulk 3) ∧
      (acts .discard none held).tables.activeBank.classify (readFrame (checkedPart r)) = some 127 ∧
      (acts (.bulk 2) none held).tables.activeBank.classify (readFrame (checkedPart r)) = some 127 ∧
      ((acts (.bulk 2) none held).HasBulkRoom ↔ held = 31)) := by
  unfold State.HasBufferFor State.HasBulkRoom
  decide +kernel

/-- R149 to R151: a FLOW_OPEN of the bound manager by the wire. -/
theorem test_witness_RequestQueued :
    let s := { asking State.reset 0x01 [] with
      engine := { State.reset.engine with binding := .bound 7 .wire 600 5 } }
    let r := withCheck (formManagement s.params.stationAddress 7 s.unitId 1 3 0x20 0 [5])
    let v := readFrame (checkedPart r)
    receptionGood r false = true ∧ v.etherType = 0x9C41 ∧ v.destination = s.params.stationAddress ∧
      v.destination ≠ broadcastAddress ∧
      readManagement v.payload = some ⟨1, 1, 3, 0x20, s.unitId, [5]⟩ ∧ isGroup v.source = false ∧
      s.engine.state = .ready ∧ s.engine.binding = .bound 7 .wire 600 5 ∧ v.source = 7 ∧
      s.engine.recorded v.source 3 = none ∧ s.engine.queued v.source 3 = false ∧
      s.engine.requests.length < 8 := by decide +kernel

/-- A wire port in one state and the rest small. -/
def withWire (w : WirePort) : State :=
  { small profile5 (inState .opened) with
    wire := w, pool := { (small profile5 (inState .opened)).pool with free := 509, bulkHeld := 1 } }

/-- R145: the port as it sends for an owner with the link up, with frames in class queues 2 and 0, and empty. -/
def wireSends (owner : WireOwner) (egress : List ReplyItem) (waiting : List WireItem) : State :=
  withWire { WirePort.initial with
    transmitter := .sending owner [1], linkUp := true, managementEgress := egress
    classQueues := writeAt (writeAt WirePort.initial.classQueues 2 waiting) 0 waiting }

/-- The frame of a flow and of the bulk account, with class frames waiting and with nothing; the last management frame
with class frames waiting; a frame that a restart abandoned. -/
theorem test_witness_WireTransmitterTakesAndReleases :
    let item : WireItem := ⟨.bulk, [3]⟩
    (∀ waiting, (wireSends (.account (.flow 5)) [] waiting).HoldsFor (.flow 5) ∧
      (wireSends (.account .bulk) [] waiting).HoldsFor .bulk) ∧
    (∀ account ∈ [Account.flow 5, .bulk], ∀ waiting ∈ [[item, item], []],
      let s := wireSends (.account account) [] waiting
      s.wire.transmitter = .sending (.account account) [1] ∧ s.engine.executing = none ∧ s.wire.linkUp = true ∧ s.wire.managementEgress = [] ∧
        readAt s.wire.classQueues 2 = waiting ∧ readAt s.wire.classQueues 0 = waiting ∧
        (∀ c, 2 < c → readAt s.wire.classQueues c = [])) ∧
    (let s := wireSends .management [⟨[1], false⟩] [item];
      s.wire.transmitter = .sending .management [1] ∧ s.wire.managementEgress = [⟨[1], false⟩] ∧
        readAt s.wire.classQueues 2 = [item]) ∧
    (wireSends .abandoned [⟨[1], false⟩] []).wire.transmitter = .sending .abandoned [1] ∧
    (withWire { WirePort.initial with managementEgress := [⟨[1], false⟩] }).wire.transmitter = .idle :=
  ⟨fun _ => ⟨show 1 ≤ (withWire WirePort.initial).held 5 by decide +kernel,
    show 1 ≤ (withWire WirePort.initial).pool.bulkHeld by decide +kernel⟩, by decide +kernel⟩

/-- R145, R146: after a bulk frame the head of class queue 2 is taken before that of class queue 0; a management frame
is taken before both; and the last end leaves the transmitter IDLE. -/
theorem test_wire_transmission_end_takes :
    let item : WireItem := ⟨.bulk, [3]⟩
    let taken := after .wireTransmissionEnd (wireSends (.account .bulk) [] [item])
    (taken.wire.transmitter = .sending (.account .bulk) (withCheck [3]) ∧
      readAt taken.wire.classQueues 2 = [] ∧ readAt taken.wire.classQueues 0 = [item] ∧
      taken.pool.bulkHeld = 0 ∧ taken.pool.free = 510) ∧
    (after .wireTransmissionEnd (wireSends .management [⟨[1], false⟩, ⟨[2], false⟩] [item])).wire.transmitter =
      .sending .management (withCheck [2]) ∧
    (after .wireTransmissionEnd (wireSends .management [⟨[1], false⟩] [])).wire.transmitter = .idle := by
  decide +kernel

/-- R145: as the wired link goes down the frame of flow 5 is treated as sent, and nothing is taken. -/
theorem test_wired_link_down_ends :
    let t := after .wiredLinkDown (wireSends (.account (.flow 5)) [] [⟨.bulk, [3]⟩])
    t.wire.transmitter = .idle ∧ t.wire.linkUp = false ∧ readAt t.wire.classQueues 2 = [⟨.bulk, [3]⟩] ∧
      t.held 5 = 1 := by decide +kernel

/-! ## The hypotheses: the link port -/

theorem test_witness_DeliveredBlockDispatched :
    checkHolds [1, 2, 3] = false ∧
    (checkHolds (withCheck [1, 2]) = true ∧ readBlock (checkedPart (withCheck [1, 2])) = none) ∧
    (checkHolds (formBlock ⟨2, .close 63⟩) = true ∧
      readBlock (checkedPart (formBlock ⟨2, .close 63⟩)) = some ⟨2, .close 63⟩) ∧
    (checkHolds (formBlock ⟨2, .leave⟩) = true ∧
      readBlock (checkedPart (formBlock ⟨2, .leave⟩)) = some ⟨2, .leave⟩) ∧
    (checkHolds (formBlock ⟨2, .bulk 3 frame0800⟩) = true ∧
      readBlock (checkedPart (formBlock ⟨2, .bulk 3 frame0800⟩)) = some ⟨2, .bulk 3 frame0800⟩) := by
  decide +kernel

theorem test_witness_SlotsAndTransmissionEnds :
    let s := withWire WirePort.initial
    let sends := fun owner => withLink s { s.link with transmitter := .sending owner [1] }
    let reply := { sends .linkReply with engine := { s.engine with linkReply := [⟨[1], false⟩] } }
    s.link.transmitter = .idle ∧ (granting s .bulk).link.transmitter = .slotOpen ∧
      (sends .plain).link.transmitter = .sending .plain [1] ∧
      ((sends .bulkBuffer).link.transmitter = .sending .bulkBuffer [1] ∧
        1 ≤ (sends .bulkBuffer).pool.bulkHeld ∧ (sends .bulkBuffer).engine.executing = none) ∧
      (reply.link.transmitter = .sending .linkReply [1] ∧ reply.engine.linkReply = [⟨[1], false⟩]) := by
  decide +kernel

/-- A slot is open and no grant is in transit. -/
def slotOpen (s : State) : State := withLink s { s.link with transmitter := .slotOpen }

theorem test_witness_SelectionOrder_partnership :
    let s := slotOpen (small profile5 (inState .opened))
    let hello := withPart s { s.part with helloPending := true }
    let lost := withPart s { s.part with state := .lost }
    (hello.link.transmitter = .slotOpen ∧ hello.link.grant = none ∧ hello.part.offers = true) ∧
      (lost.part.offers = false ∧ lost.part.state ≠ .partnered) := by decide +kernel

theorem test_witness_SelectionOrder_flows :
    let owing := slotOpen (small profile5 { inState .closing with pendingBlock := some .close })
    let lifecycle := withLink owing { owing.link with lifecycleOrder := [5] }
    let status := slotOpen (small profile5 { inState .opened with statusPending := true })
    let data := slotOpen (small profile5 { inState .opened with sendQueue := [frame0800] })
    let credit := withLink data { data.link with bulkCredit := 15, bulkQueue := [⟨0, frame0900⟩] }
    let none' := slotOpen (small profile5 (inState .opened))
    (lifecycle.part.offers = false ∧ lifecycle.part.state = .partnered ∧ lifecycle.part.ownEpoch.isSome ∧
      lifecycle.lifecycleOffer = some 5) ∧
    (status.lifecycleOffer = none ∧ status.statusOffer = some 5) ∧
    (data.lifecycleOffer = none ∧ data.statusOffer = none ∧ data.dataOffer = some (5, 0)) ∧
    (credit.dataOffer = some (5, 0) ∧ credit.offersBulk = true ∧ credit.link.bulkCredit = 15) ∧
    (none'.lifecycleOffer = none ∧ none'.statusOffer = none ∧ none'.dataOffer = none) := by
  decide +kernel

/-- R135: the first flow of the lifecycle order is suspended, the second is not; both owe a block. -/
theorem test_witness_SelectionOrder_lifecycle :
    let owes := { inState .closing with pendingBlock := some .close }
    let s := slotOpen (small profile5 owes)
    let u := { withLink s { s.link with lifecycleOrder := [4, 5] } with
      flows := writeAt s.flows 4 { owes with suspended := true } }
    u.link.lifecycleOrder = [4] ++ 5 :: [] ∧ (u.flow 5).OwesFreely ∧ (∀ k ∈ [4], ¬ (u.flow k).OwesFreely) ∧
      u.lifecycleOffer = some 5 := by
  unfold Flow.OwesFreely
  decide +kernel

/-- New data with one place left in the window, and a lost frame with one transmission left. -/
theorem test_witness_DataGrantSends :
    let s := granting (small { profile5 with window := 3 } (sending5 (.outstanding [5]) 1)) (.data 5 0)
    let u := granting (small profile5 (sending5 (.pendingRetx [5]) 1)) (.data 5 0)
    (s.link.grant = some (.data 5 0) ∧ s.part.state = .partnered ∧ s.part.ownEpoch = some 1 ∧
      (s.flow 5).state = .opened ∧ (s.flow 5).suspended = false ∧ (∀ e ∈ (s.flow 5).window, ¬ e.IsDue) ∧
      (s.flow 5).sendQueue = [[7]] ∧ (s.flow 5).window.length < (s.profile 5).window) ∧
    (u.link.grant = some (.data 5 0) ∧
      (u.flow 5).ServesFirst [] ⟨0, .pendingRetx [5], 1⟩ [⟨1, .outstanding [6], 1⟩] ∧
      1 < 1 + (u.profile 5).retryLimit ∧
      (∀ e ∈ (u.flow 5).window, e.seq = 0 → e = ⟨0, .pendingRetx [5], 1⟩)) := by
  simp only [← firstDue_eq_none_iff]
  exact ⟨by decide +kernel, by decide +kernel, ⟨by decide +kernel, .inl ⟨_, rfl⟩, by simp⟩, by decide +kernel,
    by decide +kernel⟩

/-- R8: the due entry stands behind one that is in flight and before one that is due too. -/
theorem test_witness_DataGrantSends_behind :
    let fl := { sending5 (.outstanding [5]) 1 with
      next := 3, txOrder := [0, 1, 2]
      window := [⟨0, .outstanding [5], 1⟩, ⟨1, .pendingRetx [6], 1⟩, ⟨2, .skipped .due, 1⟩] }
    let t := after .dataGrant (granting (small profile5 fl) (.data 5 0))
    fl.ServesFirst [⟨0, .outstanding [5], 1⟩] ⟨1, .pendingRetx [6], 1⟩ [⟨2, .skipped .due, 1⟩] ∧
      (t.flow 5).window =
        [⟨0, .outstanding [5], 1⟩, ⟨1, .outstanding [6], 2⟩, ⟨2, .skipped .due, 1⟩] := by
  refine ⟨⟨rfl, .inl ⟨_, rfl⟩, ?_⟩, by decide +kernel⟩
  simp [WindowEntry.IsDue]

/-- R8, R139: grants at a flow that is suspended, that is CLOSING, that has nothing to send, and whose window is full. -/
theorem test_witness_DataGrantSends_declined :
    let s := fun fl => granting (small { profile5 with window := 2 } fl) (.data 5 0)
    let full := sending5 (.outstanding [5]) 1
    (s full).link.grant = some (.data 5 0) ∧
    ((s { full with suspended := true }).flow 5).suspended = true ∧
    (((s (inState .closing)).flow 5).state ≠ .opened ∧ ((s (inState .closing)).flow 5).state ≠ .draining) ∧
    ((∀ e ∈ ((s (inState .opened)).flow 5).window, ¬ e.IsDue) ∧ ((s (inState .opened)).flow 5).sendQueue = []) ∧
    ((∀ e ∈ ((s full).flow 5).window, ¬ e.IsDue) ∧
      ((s full).profile 5).window ≤ ((s full).flow 5).window.length) ∧
    (withPart (s full) (partIn .lost)).part.state ≠ .partnered ∧
    (withPart (s full) { partIn .partnered with ownEpoch := none }).part.ownEpoch = none := by
  simp only [← firstDue_eq_none_iff]
  decide +kernel

/-- R42, R50, R139: a flow with no STATUS pending, a suspended one, one in a state that offers none, and one with no
lifecycle block. -/
theorem test_witness_StatusAndLifecycleGrants_declined :
    let s := fun fl => granting (small profile5 fl) (.status 5)
    let l := fun fl => granting (small profile5 fl) (.lifecycle 5)
    let owes := { inState .closing with statusPending := true, suspended := true, pendingBlock := some .close }
    ((s (inState .opened)).link.grant = some (.status 5) ∧
      ((s (inState .opened)).flow 5).statusPending = false) ∧
    ((s owes).flow 5).suspended = true ∧
    (((s (inState .opening)).flow 5).state ≠ .opened ∧ ((s (inState .opening)).flow 5).state ≠ .draining ∧
      ((s (inState .opening)).flow 5).state ≠ .closing) ∧
    ((l (inState .opened)).link.grant = some (.lifecycle 5) ∧
      ((l (inState .opened)).flow 5).pendingBlock = none) ∧
    ((l owes).flow 5).suspended = true := by decide +kernel

/-- R74, R139: no partnership block is offered: nothing pending, a HELLO pending in SILENT, a KEEPALIVE pending in LOST;
and no bulk frame is. -/
theorem test_witness_PartnershipAndBulkGrants_declined :
    let s := fun p => granting (withPart (small profile5 (inState .closed)) p) .partnership
    let silent := s { partIn .silent with helloPending := true }
    let lost := s { partIn .lost with helloPending := false, keepalivePending := true }
    let idle := s { partIn .partnered with helloPending := false }
    let b := granting (small profile5 (inState .closed)) .bulk
    (silent.link.grant = some .partnership ∧ silent.part.leavePending = none ∧ silent.part.state = .silent) ∧
    (lost.part.leavePending = none ∧ lost.part.helloPending = false ∧ lost.part.state ≠ .partnered) ∧
    (idle.part.leavePending = none ∧ idle.part.helloPending = false ∧ idle.part.keepalivePending = false) ∧
    (b.link.grant = some .bulk ∧ b.engine.linkReply = [] ∧ b.link.bulkQueue = []) := by decide +kernel

/-- A SKIPPED, DUE entry with one transmission left. -/
theorem test_witness_DataGrantSends_skipped :
    let s := granting (small profile5 (sending5 (.skipped .due) 1)) (.data 5 0)
    s.link.grant = some (.data 5 0) ∧ s.part.state = .partnered ∧ s.part.ownEpoch = some 1 ∧
      (s.flow 5).state = .opened ∧ (s.flow 5).suspended = false ∧
      (s.flow 5).ServesFirst [] ⟨0, .skipped .due, 1⟩ [⟨1, .outstanding [6], 1⟩] ∧
      1 < 1 + (s.profile 5).retryLimit ∧
      (∀ e ∈ (s.flow 5).window, e.seq = 0 → e = ⟨0, .skipped .due, 1⟩) :=
  ⟨by decide +kernel, by decide +kernel, by decide +kernel, by decide +kernel, by decide +kernel,
    ⟨by decide +kernel, .inr rfl, by simp⟩, by decide +kernel, by decide +kernel⟩

theorem test_witness_ExhaustedEntryServed :
    let skip := { profile5 with exhaustion := .skip }
    let s := granting (small skip (sending5 (.pendingRetx [5]) 2)) (.data 5 0)
    let u := granting (small profile5 { sending5 (.pendingRetx [5]) 2 with sendQueue := [] }) (.data 5 0)
    (s.link.grant = some (.data 5 0) ∧ s.part.state = .partnered ∧ s.part.ownEpoch = some 1 ∧
      (s.flow 5).state = .opened ∧ (s.flow 5).suspended = false ∧ 1 + (s.profile 5).retryLimit ≤ 2 ∧
      (s.profile 5).exhaustion = .skip ∧ 1 ≤ s.held 5 ∧ s.engine.executing = none) ∧
    (s.flow 5).ServesFirst [] ⟨0, .pendingRetx [5], 2⟩ [⟨1, .outstanding [6], 1⟩] ∧
    (u.flow 5).ServesFirst [] ⟨0, .pendingRetx [5], 2⟩ [⟨1, .outstanding [6], 1⟩] ∧
    (u.link.grant = some (.data 5 0) ∧
      (u.profile 5).exhaustion = .fail ∧ (u.flow 5).collectedBuffers ≤ u.held 5) :=
  ⟨by decide +kernel, ⟨by decide +kernel, .inl ⟨_, rfl⟩, by simp⟩, ⟨by decide +kernel, .inl ⟨_, rfl⟩, by simp⟩,
    by decide +kernel⟩

/-- An exhausted SKIPPED, DUE entry under policy SKIP. -/
theorem test_witness_ExhaustedEntryServed_skipped :
    let s := granting (small { profile5 with exhaustion := .skip } (sending5 (.skipped .due) 2)) (.data 5 0)
    s.link.grant = some (.data 5 0) ∧ s.part.state = .partnered ∧ s.part.ownEpoch = some 1 ∧
      (s.flow 5).state = .opened ∧ (s.flow 5).suspended = false ∧
      (s.flow 5).ServesFirst [] ⟨0, .skipped .due, 2⟩ [⟨1, .outstanding [6], 1⟩] ∧
      1 + (s.profile 5).retryLimit ≤ 2 ∧
      (s.flow 5).collectedBuffers ≤ s.held 5 ∧ s.engine.executing = none :=
  ⟨by decide +kernel, by decide +kernel, by decide +kernel, by decide +kernel, by decide +kernel,
    ⟨by decide +kernel, .inr rfl, by simp⟩, by decide +kernel, by decide +kernel, by decide +kernel⟩

theorem test_witness_StatusGrantFormsStatus :
    let s := granting (small profile5 { inState .closing with statusPending := true }) (.status 5)
    s.link.grant = some (.status 5) ∧ s.part.state = .partnered ∧ s.part.ownEpoch = some 1 ∧
      (s.flow 5).statusPending = true ∧ (s.flow 5).suspended = false ∧ (s.flow 5).state = .closing := by
  decide +kernel

theorem test_witness_LifecycleGrantTakesBlock :
    let s := fun state b => granting (small profile5 { inState state with pendingBlock := some b })
      (.lifecycle 5)
    ((s .opening (.openFlow 8 .inOrder)).link.grant = some (.lifecycle 5) ∧
      (s .opening (.openFlow 8 .inOrder)).part.state = .partnered ∧
      (s .opening (.openFlow 8 .inOrder)).part.ownEpoch = some 1 ∧
      ((s .opening (.openFlow 8 .inOrder)).flow 5).suspended = false ∧
      ((s .opening (.openFlow 8 .inOrder)).flow 5).pendingBlock = some (.openFlow 8 .inOrder)) ∧
    ((s .closing .close).flow 5).pendingBlock = some .close ∧
    ((s .closed .abort).flow 5).pendingBlock = some .abort ∧ ((s .closed .abort).flow 5).state ≠ .draining := by
  decide +kernel

/-- An OPEN_ACK and a CLOSE_ACK that displaced a block of a series; and an ABORT at a drain that waited for
nothing else, of each origin, and at one that waits for a frame too. -/
theorem test_witness_LifecycleGrantTakesBlock_acks :
    let s := fun fl => granting (small profile5 fl) (.lifecycle 5)
    let opening := { inState .opening with pendingBlock := some (.openAck .profileMismatch) }
    let closing := { inState .closing with pendingBlock := some .closeAck }
    let drains := fun origin => { inState .draining with
      pendingBlock := some .abort, drainOrigin := some origin }
    let waits := { drains .localEnd with sendQueue := [frame0800] }
    (((s opening).flow 5).state = .opening ∧ ((s opening).flow 5).openTimer = .stopped ∧
      ((s opening).flow 5).pendingBlock = some (.openAck .profileMismatch)) ∧
    (((s closing).flow 5).state = .closing ∧ ((s closing).flow 5).retxTimer = .stopped ∧
      ((s closing).flow 5).pendingBlock = some .closeAck) ∧
    (∀ origin ∈ [DrainOrigin.localEnd, .peerEnd],
      (s (drains origin)).link.grant = some (.lifecycle 5) ∧ (s (drains origin)).part.state = .partnered ∧
      (s (drains origin)).part.ownEpoch = some 1 ∧ ((s (drains origin)).flow 5).suspended = false ∧
      ((s (drains origin)).flow 5).state = .draining ∧ ((s (drains origin)).flow 5).sendQueue = [] ∧
      ((s (drains origin)).flow 5).window = [] ∧ (s (drains origin)).engine.executing = none ∧
      ((s (drains origin)).flow 5).drainOrigin = some origin ∧
      ((s (drains origin)).flow 5).collectedBuffers ≤ (s (drains origin)).held 5) ∧
    (((s waits).flow 5).state = .draining ∧ ((s waits).flow 5).sendQueue ≠ []) := by decide +kernel

theorem test_witness_PartnershipAndBulkGrantsSend :
    let s := granting (small profile5 (inState .closed)) .partnership
    let b := granting (small profile5 (inState .closed)) .bulk
    let leave := withPart s { s.part with leavePending := some 4 }
    let hello := withPart s { s.part with helloPending := true }
    let alive := withPart s { s.part with keepalivePending := true }
    let reply := { b with engine := { b.engine with linkReply := [⟨[1], false⟩] } }
    let frame := withLink b { b.link with bulkQueue := [⟨2, frame0900⟩] }
    (leave.link.grant = some .partnership ∧ leave.part.state = .partnered ∧ leave.part.ownEpoch = some 1 ∧
      leave.engine.state = .ready ∧ leave.part.leavePending = some 4) ∧
    (hello.part.leavePending = none ∧ hello.part.helloPending = true) ∧
    (alive.part.helloPending = false ∧ alive.part.keepalivePending = true) ∧
    (reply.link.grant = some .bulk ∧ reply.part.state = .partnered ∧ reply.part.ownEpoch = some 1 ∧
      reply.engine.linkReply = [⟨[1], false⟩]) ∧
    (frame.engine.linkReply = [] ∧ frame.link.bulkQueue = [⟨2, frame0900⟩]) := by decide +kernel

/-- R74: a LEAVE from SILENT, the LEAVE that a RESTART awaits, and a HELLO from JOINING and from LOST. -/
theorem test_witness_PartnershipAndBulkGrantsSend_states :
    let s := fun p => granting (withPart (small profile5 (inState .closed)) p) .partnership
    let leave := s { Partnership.initial with leavePending := some 4 }
    let restarting := { leave with engine := { leave.engine with state := .awaitLeave } }
    let hello := fun state => s { Partnership.initial with
      state := state, ownEpoch := some 1, helloPending := true }
    (leave.link.grant = some .partnership ∧ leave.part.state = .silent ∧ leave.part.leavePending = some 4) ∧
    (restarting.engine.state = .awaitLeave ∧ restarting.part.leavePending = some 4) ∧
    (∀ state ∈ [LinkState.joining, .lost], (hello state).link.grant = some .partnership ∧
      (hello state).part.leavePending = none ∧ (hello state).part.state ≠ .silent ∧
      (hello state).part.helloPending = true ∧ (hello state).part.ownEpoch = some 1) := by decide +kernel

/-! ## The hypotheses: blocks received at a flow -/

theorem test_witness_DataInOrderDelivered :
    let fl := { inState .draining with reorder := [⟨1, .frame [9]⟩, ⟨3, .skip⟩] }
    let s := hearing (small profile5 fl) (.data 5 0 frame0800)
    s.Receives ⟨2, .data 5 (s.flow 5).expected frame0800⟩ ∧ (s.flow 5).state = .draining ∧
      s.HasBufferFor 5 ∧ s.engine.executing = none ∧ (s.flow 5).reorder = [⟨1, .frame [9]⟩] ++ [⟨3, .skip⟩] ∧
      ContiguousRun ((s.flow 5).expected + 1) [⟨1, .frame [9]⟩] [⟨3, .skip⟩] ∧ s.wire.busy :=
  ⟨⟨rfl, rfl, rfl⟩, by decide +kernel, by unfold State.HasBufferFor; decide +kernel, rfl, by decide +kernel,
    ⟨by decide +kernel, by decide +kernel⟩, .inr rfl⟩

/-- A lone frame with an IDLE transmitter and nothing queued. -/
theorem test_witness_DataInOrderDelivered_idle :
    let s := { hearing (small profile5 (inState .opened)) (.data 5 0 frame0800) with
      wire := { WirePort.initial with linkUp := true } }
    s.Receives ⟨2, .data 5 (s.flow 5).expected frame0800⟩ ∧ s.HasBufferFor 5 ∧
      ContiguousRun ((s.flow 5).expected + 1) [] [] ∧ s.wire.transmitter = .idle ∧ s.wire.linkUp = true ∧
      s.wire.managementEgress = [] ∧ (∀ c, readAt s.wire.classQueues c = []) ∧ framesOf [] = [] :=
  ⟨⟨rfl, rfl, rfl⟩, by unfold State.HasBufferFor; decide +kernel, ⟨by decide +kernel, by decide +kernel⟩, by decide +kernel⟩

/-- R145: an IDLE transmitter with the wired link up and an empty egress begins the first frame that a block delivers,
and the frame of the run behind it waits in class queue 0: of a DATA, of an early DATA in ARRIVAL mode, of an ADVANCE,
of an ADVANCE that delivers nothing, and of a BULK block of class 3. -/
theorem test_witness_frames_placed_at_idle :
    let idle := fun s : State => { s with wire := { WirePort.initial with linkUp := true } }
    let run := { inState .opened with reorder := [⟨1, .frame [9]⟩, ⟨2, .frame [8]⟩] }
    let s := idle (hearing (small profile5 run) (.data 5 0 frame0800))
    let arrives := idle (hearing (small { profile5 with order := .arrival } (inState .opened)) (.data 5 7 frame0800))
    let advances := idle (hearing (small profile5 run) (.advance 5 0))
    let passes := idle (hearing (small profile5 (inState .opened)) (.advance 5 0))
    let bulk := idle (withLink (small profile5 (inState .closed)) { LinkPort.initial with
      toBulk := [⟨2, .bulk 3 frame0900⟩] })
    (s.wire.transmitter = .idle ∧ s.wire.linkUp = true ∧ s.wire.managementEgress = [] ∧
      ∀ c, readAt s.wire.classQueues c = []) ∧
    ((after .dataReceived s).wire.transmitter = .sending (.account (.flow 5)) (withCheck frame0800) ∧
      readAt (after .dataReceived s).wire.classQueues 0 = [⟨.flow 5, [9]⟩, ⟨.flow 5, [8]⟩]) ∧
    (after .dataReceived arrives).wire.transmitter = .sending (.account (.flow 5)) (withCheck frame0800) ∧
    ((after .advanceReceived advances).wire.transmitter = .sending (.account (.flow 5)) (withCheck [9]) ∧
      readAt (after .advanceReceived advances).wire.classQueues 0 = [⟨.flow 5, [8]⟩]) ∧
    (after .advanceReceived passes).wire = passes.wire ∧
    (after .bulkReceived bulk).wire.transmitter = .sending (.account .bulk) (withCheck frame0900) := by
  decide +kernel

/-- The nearest and the farthest early sequence of W = 8, the second in ARRIVAL mode. -/
theorem test_witness_EarlyDataHeld :
    let fl := { inState .opened with reorder := [⟨3, .skip⟩] }
    let s := hearing (small profile5 fl) (.data 5 1 frame0800)
    let u := hearing (small { profile5 with order := .arrival } fl) (.data 5 7 frame0800)
    (s.Receives ⟨2, .data 5 1 frame0800⟩ ∧ 1 ≤ seqDistance (s.flow 5).expected 1 ∧
      seqDistance (s.flow 5).expected 1 < (s.profile 5).window ∧ s.HasBufferFor 5 ∧
      s.engine.executing = none ∧ PlaceInOrder (s.flow 5).expected 1 [] [⟨3, .skip⟩] ∧
      (s.profile 5).order = .inOrder) ∧
    (u.Receives ⟨2, .data 5 7 frame0800⟩ ∧ seqDistance (u.flow 5).expected 7 < (u.profile 5).window ∧
      u.HasBufferFor 5 ∧ PlaceInOrder (u.flow 5).expected 7 [⟨3, .skip⟩] [] ∧
      (u.profile 5).order = .arrival) :=
  ⟨⟨⟨rfl, rfl, rfl⟩, by decide +kernel, by decide +kernel, by unfold State.HasBufferFor; decide +kernel, rfl,
    ⟨by decide +kernel, by decide +kernel⟩, rfl⟩, ⟨rfl, rfl, rfl⟩, by decide +kernel,
    by unfold State.HasBufferFor; decide +kernel, ⟨by decide +kernel, by decide +kernel⟩, rfl⟩

theorem test_witness_UnstoredDataCounted :
    let fl := { inState .closing with reorder := [⟨1, .skip⟩] }
    let s := fun q => hearing (small profile5 fl) (.data 5 q frame0800)
    let full := hearing (small { profile5 with cap := 2 } fl) (.data 5 7 frame0800)
    ((s 1).Receives ⟨2, .data 5 1 frame0800⟩ ∧ ((s 1).flow 5).state = .closing ∧
      1 ≤ ((s 1).profile 5).window ∧ ((s 1).profile 5).window ≤ 64 ∧
      (∃ m ∈ ((s 1).flow 5).reorder, m.seq = 1)) ∧
    ((s 4095).Receives ⟨2, .data 5 4095 frame0800⟩ ∧ seqBefore 4095 ((s 4095).flow 5).expected = true) ∧
    ((s 8).Receives ⟨2, .data 5 8 frame0800⟩ ∧ (s 2048).Receives ⟨2, .data 5 2048 frame0800⟩ ∧
      seqDistance ((s 8).flow 5).expected 8 = ((s 8).profile 5).window ∧
      seqDistance ((s 2048).flow 5).expected 2048 ≤ 2048) ∧
    (full.Receives ⟨2, .data 5 7 frame0800⟩ ∧ seqDistance (full.flow 5).expected 7 < (full.profile 5).window ∧
      (∀ m ∈ (full.flow 5).reorder, m.seq ≠ 7) ∧ ¬ full.HasBufferFor 5) :=
  ⟨⟨⟨rfl, rfl, rfl⟩, by decide +kernel, by decide +kernel, by decide +kernel, ⟨⟨1, .skip⟩, by decide +kernel, rfl⟩⟩,
    ⟨⟨rfl, rfl, rfl⟩, by decide +kernel⟩, ⟨⟨rfl, rfl, rfl⟩, ⟨rfl, rfl, rfl⟩, by decide +kernel, by decide +kernel⟩,
    ⟨rfl, rfl, rfl⟩, by decide +kernel, by decide +kernel, by unfold State.HasBufferFor; decide +kernel⟩

theorem test_witness_AdvancePasses :
    let fl := { inState .opened with reorder := [⟨1, .frame [9]⟩] }
    let s := fun q => hearing (small profile5 fl) (.advance 5 q)
    ((s 0).Receives ⟨2, .advance 5 0⟩ ∧ ((s 0).flow 5).state = .opened ∧ ((s 0).flow 5).expected = 0 ∧
      1 ≤ ((s 0).profile 5).window ∧ ((s 0).profile 5).window ≤ 64 ∧
      ContiguousRun (((s 0).flow 5).expected + 1) [⟨1, .frame [9]⟩] []) ∧
    ((s 7).Receives ⟨2, .advance 5 7⟩ ∧
      seqDistance ((s 7).flow 5).expected 7 < ((s 7).profile 5).window ∧
      PlaceInOrder ((s 7).flow 5).expected 7 [⟨1, .frame [9]⟩] []) ∧
    ((s 1).Receives ⟨2, .advance 5 1⟩ ∧ (∃ m ∈ ((s 1).flow 5).reorder, m.seq = 1)) ∧
    ((s 2049).Receives ⟨2, .advance 5 2049⟩ ∧ seqBefore 2049 ((s 2049).flow 5).expected = true) ∧
    ((s 8).Receives ⟨2, .advance 5 8⟩ ∧ (s 2048).Receives ⟨2, .advance 5 2048⟩ ∧
      ((s 8).profile 5).window ≤ seqDistance ((s 8).flow 5).expected 8 ∧
      seqDistance ((s 2048).flow 5).expected 2048 ≤ 2048) :=
  ⟨⟨⟨rfl, rfl, rfl⟩, by decide +kernel, by decide +kernel, by decide +kernel, by decide +kernel, ⟨by decide +kernel, by decide +kernel⟩⟩,
    ⟨⟨rfl, rfl, rfl⟩, by decide +kernel, ⟨by decide +kernel, by decide +kernel⟩⟩,
    ⟨⟨rfl, rfl, rfl⟩, ⟨⟨1, .frame [9]⟩, by decide +kernel, rfl⟩⟩, ⟨⟨rfl, rfl, rfl⟩, by decide +kernel⟩,
    ⟨rfl, rfl, rfl⟩, ⟨rfl, rfl, rfl⟩, by decide +kernel, by decide +kernel⟩

theorem test_witness_BlocksNotTaken :
    let s := fun state b => hearing (small profile5 (inState state)) b
    let stale := withPart (s .opened (.close 5)) { (s .opened (.close 5)).part with partnerEpoch := some 3 }
    let alive := withLink (small profile5 (inState .closed)) { LinkPort.initial with
      toPartnership := [⟨2, .keepalive⟩], toBulk := [⟨3, .bulk 0 frame0900⟩] }
    ((s .closed (.data 5 9 frame0800)).Receives ⟨2, .data 5 9 frame0800⟩ ∧
      ((s .closed (.data 5 9 frame0800)).flow 5).state = .closed) ∧
    ((s .opening (.advance 5 9)).Receives ⟨2, .advance 5 9⟩ ∧
      ((s .opening (.advance 5 9)).flow 5).state = .opening) ∧
    ((s .failed (.status 5 9 0 none)).Receives ⟨2, .status 5 9 0 none⟩ ∧
      ((s .failed (.status 5 9 0 none)).flow 5).state = .failed) ∧
    (alive.link.toPartnership = [⟨2, .keepalive⟩] ∧ alive.part.state = .partnered ∧
      alive.part.partnerEpoch = some 2 ∧ alive.link.toBulk = [⟨3, .bulk 0 frame0900⟩] ∧
      alive.part.partnerEpoch ≠ some 3) ∧
    (stale.link.toFlows = [⟨2, .close 5⟩] ∧ arrivalOf (.close 5) = some .closeReceived ∧
      stale.part.partnerEpoch ≠ some 2) :=
  ⟨⟨⟨rfl, rfl, rfl⟩, by decide +kernel⟩, ⟨⟨rfl, rfl, rfl⟩, by decide +kernel⟩, ⟨⟨rfl, rfl, rfl⟩, by decide +kernel⟩,
    by decide +kernel⟩

/-- A CLOSE_ACK at an OPEN flow, and an ABORT at a CLOSED one. -/
theorem test_witness_BlocksNotTaken_ignored :
    let s := fun state b => hearing (small profile5 (inState state)) b
    ((s .opened (.closeAck 5)).Receives ⟨2, .closeAck 5⟩ ∧ ((s .opened (.closeAck 5)).flow 5).state ≠ .closing) ∧
    ((s .closed (.abort 5)).Receives ⟨2, .abort 5⟩ ∧ ((s .closed (.abort 5)).flow 5).state = .closed) :=
  ⟨⟨⟨rfl, rfl, rfl⟩, by decide +kernel⟩, ⟨⟨rfl, rfl, rfl⟩, by decide +kernel⟩⟩

/-- A STATUS that acknowledges everything sent (A = N = 2), and one that is one beyond it. -/
theorem test_witness_StatusReceivedAtOpen :
    let s := fun a => hearing (small profile5 { sending5 (.outstanding [5]) 1 with sendQueue := [] })
      (.status 5 a 0 none)
    ((s 2).Receives ⟨2, .status 5 2 0 none⟩ ∧ ((s 2).flow 5).state = .opened ∧
      (s 2).engine.executing = none ∧
      seqDistance ((s 2).flow 5).lower 2 ≤ seqDistance ((s 2).flow 5).lower ((s 2).flow 5).next ∧
      (((s 2).flow 5).window.filter fun e => seqBefore e.seq 2).countP (·.holdsBuffer) ≤ (s 2).held 5) ∧
    ((s 3).Receives ⟨2, .status 5 3 0 none⟩ ∧
      seqDistance ((s 3).flow 5).lower ((s 3).flow 5).next < seqDistance ((s 3).flow 5).lower 3) :=
  ⟨⟨⟨rfl, rfl, rfl⟩, by decide +kernel, rfl, by decide +kernel, by decide +kernel⟩, ⟨rfl, rfl, rfl⟩, by decide +kernel⟩

/-- A STATUS that completes a drain of each origin, one at a drain that waits for a frame, and one at a CLOSING
flow. -/
theorem test_witness_StatusReceivedAtOpen_draining :
    let drains := fun origin => { sending5 (.outstanding [5]) 1 with
      state := .draining, sendQueue := [], drainOrigin := some origin }
    let s := fun fl => hearing (small profile5 fl) (.status 5 2 0 none)
    let closing := hearing (small profile5 (inState .closing)) (.status 5 0 0 none)
    (∀ origin, (s (drains origin)).Receives ⟨2, .status 5 2 0 none⟩) ∧
    (∀ origin ∈ [DrainOrigin.localEnd, .peerEnd], (s (drains origin)).engine.executing = none ∧
      ((s (drains origin)).flow 5).state = .draining ∧ ((s (drains origin)).flow 5).suspended = false ∧
      ((s (drains origin)).flow 5).sendQueue = [] ∧ ((s (drains origin)).flow 5).pendingBlock = none ∧
      (∀ e ∈ ((s (drains origin)).flow 5).window, seqBefore e.seq 2 = true) ∧
      seqDistance ((s (drains origin)).flow 5).lower 2 ≤
        seqDistance ((s (drains origin)).flow 5).lower ((s (drains origin)).flow 5).next ∧
      ((s (drains origin)).flow 5).drainOrigin = some origin ∧
      (((s (drains origin)).flow 5).window.filter fun e => seqBefore e.seq 2).countP (·.holdsBuffer) +
        ((s (drains origin)).flow 5).reorder.countP (·.holdsBuffer) ≤ (s (drains origin)).held 5) ∧
    ((s { drains .localEnd with sendQueue := [[7]] }).flow 5).sendQueue ≠ [] ∧
    (closing.Receives ⟨2, .status 5 0 0 none⟩ ∧ (closing.flow 5).state = .closing ∧
      (closing.flow 5).window = [] ∧ (closing.flow 5).txOrder = [] ∧ 0 = (closing.flow 5).lower) :=
  ⟨fun _ => ⟨rfl, rfl, rfl⟩, by decide +kernel, by decide +kernel, ⟨rfl, rfl, rfl⟩, by decide +kernel⟩

theorem test_witness_RetransmissionTimerExpires :
    let s := small profile5 { sending5 (.sacked [5]) 1 with retxTimer := .running 0 }
    (s.flow 5).state = .opened ∧ (s.flow 5).suspended = false ∧ (s.flow 5).retxTimer = .running 0 ∧
      (s.flow 5).txOrder = [0] ++ 1 :: [] ∧ (∀ x ∈ (s.flow 5).window, x.seq ∈ [(0 : Seq)] → x.inFlight = false) ∧
      (⟨1, .outstanding [6], 1⟩ : WindowEntry) ∈ (s.flow 5).window ∧
      WindowEntry.inFlight ⟨1, .outstanding [6], 1⟩ = true ∧
      (∀ x ∈ (s.flow 5).window, x.seq = 1 → x = ⟨1, .outstanding [6], 1⟩) := by decide +kernel

/-! ## The hypotheses: the flow lifecycle -/

theorem test_witness_FlowsOpen :
    let s := fun p state b => hearing (small p (inState state)) b
    let p := { profile5 with reserve := 32 }
    let owing := hearing (small profile5 { inState .opening with pendingBlock := some (.openFlow 8 .inOrder) })
      (.openAck 5 .accept)
    ((s p .closed (.openFlow 5 8 .inOrder)).Receives ⟨2, .openFlow 5 8 .inOrder⟩ ∧
      ((s p .closed (.openFlow 5 8 .inOrder)).flow 5).state = .closed ∧ p.mode = .reliable ∧ 8 = p.window ∧
      p.reserve ≤ (s p .closed (.openFlow 5 8 .inOrder)).pool.sharedFree) ∧
    ((s Profile.initial .closed (.openFlow 5 16 .inOrder)).Receives ⟨2, .openFlow 5 16 .inOrder⟩ ∧
      Profile.initial.mode = .disabled) ∧
    ((s p .closed (.openFlow 5 9 .inOrder)).Receives ⟨2, .openFlow 5 9 .inOrder⟩ ∧ 9 ≠ p.window) ∧
    ((s p .opening (.openFlow 5 p.window p.order)).Receives ⟨2, .openFlow 5 p.window p.order⟩ ∧
      ((s p .opening (.openFlow 5 p.window p.order)).flow 5).state = .opening) ∧
    (owing.Receives ⟨2, .openAck 5 .accept⟩ ∧ (owing.flow 5).state = .opening ∧
      (owing.flow 5).pendingBlock = some (.openFlow 8 .inOrder)) :=
  ⟨⟨⟨rfl, rfl, rfl⟩, by decide +kernel, by decide +kernel, by decide +kernel, by decide +kernel⟩, ⟨⟨rfl, rfl, rfl⟩, rfl⟩,
    ⟨⟨rfl, rfl, rfl⟩, by decide +kernel⟩, ⟨⟨rfl, rfl, rfl⟩, by decide +kernel⟩, ⟨rfl, rfl, rfl⟩, by decide +kernel⟩

/-- R54: the pool has no room for the reserve. -/
theorem test_witness_FlowsOpen_noBuffers :
    let s := { hearing (small profile5 (inState .closed)) (.openFlow 5 8 .inOrder) with
      pool := { Pool.initial with free := 1 } }
    s.Receives ⟨2, .openFlow 5 8 .inOrder⟩ ∧ s.pool.sharedFree < (s.profile 5).reserve :=
  ⟨⟨rfl, rfl, rfl⟩, by decide +kernel⟩

/-- R55, R56: the crossed OPEN that differs, and OPEN and OPEN_ACK in the other states. -/
theorem test_witness_FlowsOpen_states :
    let s := fun state b => hearing (small profile5 (inState state)) b
    (∀ state, (s state (.openFlow 5 9 .inOrder)).Receives ⟨2, .openFlow 5 9 .inOrder⟩ ∧
      (∀ verdict, (s state (.openAck 5 verdict)).Receives ⟨2, .openAck 5 verdict⟩) ∧
      (s state (.openFlow 5 9 .inOrder)).engine.executing = none) ∧
    9 ≠ ((s .opening (.openFlow 5 9 .inOrder)).profile 5).window ∧
    (∀ state ∈ [FlowState.closed, .opening, .opened, .draining, .closing, .failed],
      ((s state (.openFlow 5 9 .inOrder)).flow 5).state = state ∧
      ((s state (.openAck 5 .noBuffers)).flow 5).state = state ∧
      ((s state (.openAck 5 .accept)).flow 5).pendingBlock = none) :=
  ⟨fun _ => ⟨⟨rfl, rfl, rfl⟩, fun _ => ⟨rfl, rfl, rfl⟩, rfl⟩, by decide +kernel, by decide +kernel⟩

theorem test_witness_FlowEndings :
    let opening := { inState .opening with openTimer := .running 0, attempts := 4 }
    let closing := { inState .closing with
      retxTimer := .running 0, attempts := 2, pendingBlock := some .closeAck }
    let s := fun fl b => hearing (small profile5 fl) b
    ((small profile5 opening).engine.executing = none ∧
      ((small profile5 opening).flow 5).collectedBuffers ≤ (small profile5 opening).held 5 ∧
      ((small profile5 opening).flow 5).state = .opening ∧
      ((small profile5 opening).flow 5).openTimer = .running 0 ∧
      4 ≤ ((small profile5 opening).flow 5).attempts) ∧
    (((small profile5 closing).flow 5).state = .closing ∧
      1 + ((small profile5 closing).profile 5).retryLimit ≤ ((small profile5 closing).flow 5).attempts ∧
      ((small profile5 closing).flow 5).pendingBlock = some .closeAck) ∧
    (s closing (.closeAck 5)).Receives ⟨2, .closeAck 5⟩ ∧
    (s opening (.openAck 5 .noBuffers)).Receives ⟨2, .openAck 5 .noBuffers⟩ ∧
    ((s opening (.abort 5)).Receives ⟨2, .abort 5⟩ ∧ ((s opening (.abort 5)).flow 5).inUse = true) :=
  ⟨by decide +kernel, by decide +kernel, ⟨rfl, rfl, rfl⟩, ⟨rfl, rfl, rfl⟩, ⟨rfl, rfl, rfl⟩, by decide +kernel⟩

theorem test_witness_CloseReceived :
    let s := fun fl => hearing (small profile5 fl) (.close 5)
    let busy := { inState .opened with sendQueue := [frame0800] }
    let draining := { busy with state := .draining, drainOrigin := some .localEnd }
    ((s busy).Receives ⟨2, .close 5⟩ ∧ (s busy).engine.executing = none ∧
      ((s busy).flow 5).state = .opened ∧ ((s busy).flow 5).busyDraining) ∧
    ((s (inState .opened)).Receives ⟨2, .close 5⟩ ∧ ¬ ((s (inState .opened)).flow 5).busyDraining ∧
      ((s (inState .opened)).flow 5).collectedBuffers ≤ (s (inState .opened)).held 5 ∧
      ((s (inState .opened)).flow 5).deferred = none) ∧
    ((s draining).Receives ⟨2, .close 5⟩ ∧ ((s draining).flow 5).drainOrigin = some .localEnd ∧
      ((s draining).flow 5).busyDraining) ∧
    ((s (inState .closed)).Receives ⟨2, .close 5⟩ ∧ ((s (inState .closed)).flow 5).state = .closed) ∧
    ((s (inState .failed)).Receives ⟨2, .close 5⟩ ∧ ((s (inState .failed)).flow 5).state = .failed) := by
  refine ⟨⟨⟨rfl, rfl, rfl⟩, rfl, by decide +kernel, .inr (.inl (by decide +kernel))⟩, ⟨⟨rfl, rfl, rfl⟩, ?_, by decide +kernel,
    by decide +kernel⟩, ⟨⟨rfl, rfl, rfl⟩, by decide +kernel, .inr (.inl (by decide +kernel))⟩, ⟨⟨rfl, rfl, rfl⟩, by decide +kernel⟩,
    ⟨rfl, rfl, rfl⟩, by decide +kernel⟩
  unfold Flow.busyDraining
  decide +kernel

theorem test_witness_TimersThatOweABlock :
    let ack := small profile5 { inState .opened with ackTimer := .running 0 }
    let opening := small profile5 { inState .opening with openTimer := .running 0, attempts := 3 }
    let closing := small profile5 { inState .closing with retxTimer := .running 0, attempts := 1 }
    let alive := withPart ack { ack.part with keepaliveTimer := .running 0 }
    ((ack.flow 5).suspended = false ∧ (ack.flow 5).ackTimer = .running 0) ∧
    ((opening.flow 5).state = .opening ∧ (opening.flow 5).openTimer = .running 0 ∧
      (opening.flow 5).attempts < 4) ∧
    ((closing.flow 5).state = .closing ∧ (closing.flow 5).suspended = false ∧
      (closing.flow 5).retxTimer = .running 0 ∧
      (closing.flow 5).attempts < 1 + (closing.profile 5).retryLimit) ∧
    (alive.part.state = .partnered ∧ alive.part.keepaliveTimer = .running 0) := by decide +kernel

theorem test_witness_TimersThatOweABlock_hello :
    let s := withPart (small profile5 (inState .closed)) { Partnership.initial with
      state := .joining, helloTimer := .running 0 }
    s.part.helloTimer = .running 0 := rfl

/-- One millisecond left, and a suspended flow. -/
theorem test_witness_TimersThatOweABlock_left :
    let fl := { inState .closing with
      retxTimer := .running 1, ackTimer := .running 1, openTimer := .running 1 }
    let s := withPart (small profile5 fl) { Partnership.initial with
      joinTimer := .running 1, helloTimer := .running 1, silenceTimer := .running 1
      keepaliveTimer := .running 1, holdTimer := .running 1 }
    let u := { s with engine := { s.engine with binding := .bound 7 .wire 600 1 } }
    ((s.flow 5).retxTimer = .running (0 + 1) ∧ (s.flow 5).ackTimer = .running (0 + 1) ∧
      (s.flow 5).openTimer = .running (0 + 1)) ∧
    (s.part.joinTimer = .running (0 + 1) ∧ s.part.helloTimer = .running (0 + 1) ∧
      s.part.silenceTimer = .running (0 + 1) ∧ s.part.keepaliveTimer = .running (0 + 1) ∧
      s.part.holdTimer = .running (0 + 1)) ∧
    u.engine.binding = .bound 7 .wire 600 (0 + 1) ∧
    ((small profile5 { fl with suspended := true }).flow 5).suspended = true := by decide +kernel

/-! ## The hypotheses: the partnership -/

/-- The state with one block waiting for the partnership controller, and another partnership. -/
def greeted (p : Partnership) (b : LinkBlock) : State :=
  withLink (withPart (small profile5 (inState .opened)) p) { LinkPort.initial with toPartnership := [b] }

theorem test_witness_HelloReceived :
    let s := fun state unit seen => greeted (partIn state) ⟨2, .hello unit seen⟩
    ((s .silent 9 none).engine.executing = none ∧
      (s .silent 9 none).link.toPartnership = [⟨2, .hello 9 none⟩] ∧ (s .silent 9 none).part.state = .silent) ∧
    ((s .lost (State.reset.unitId) none).part.state ≠ .silent ∧
      State.reset.unitId = (s .lost (State.reset.unitId) none).unitId) ∧
    ((s .partnered 8 none).part.state = .partnered ∧ (s .partnered 8 none).part.partnerUnit ≠ some 8) ∧
    ((s .joining 8 none).part.state = .joining ∧ 8 ≠ (s .joining 8 none).unitId ∧
      (s .joining 8 none).params.expectedPartner = none ∧ ¬ (s .joining 8 none).part.confirmedBy none ∧
      (s .joining 8 (some 1)).part.confirmedBy (some 1)) ∧
    ((s .partnered 9 none).part.partnerUnit = some 9 ∧ 9 ≠ (s .partnered 9 none).unitId ∧
      (s .partnered 9 none).part.partnerEpoch = some 2) := by
  refine ⟨by decide +kernel, by decide +kernel, by decide +kernel, ⟨by decide +kernel, by decide +kernel, by decide +kernel, ?_, ⟨1, rfl, rfl⟩⟩, by decide +kernel⟩
  rintro ⟨own, h, -⟩
  cases h

/-- R79: in LOST, the partner epoch and no seen epoch. -/
theorem test_witness_HelloReceived_lost :
    let s := greeted (partIn .lost) ⟨2, .hello 9 none⟩
    s.engine.executing = none ∧ s.link.toPartnership = [⟨2, .hello 9 none⟩] ∧ s.part.state = .lost ∧
      9 ≠ s.unitId ∧ s.part.partnerUnit = some 9 ∧ s.part.partnerEpoch = some 2 ∧
      ¬ s.part.confirmedBy none := by
  refine ⟨rfl, rfl, rfl, by decide +kernel, rfl, rfl, ?_⟩
  rintro ⟨own, h, -⟩
  cases h

theorem test_witness_PartnershipRegained :
    let fl := { sending5 (.outstanding [5]) 1 with suspended := true }
    let s := withLink (withPart (small profile5 fl) (partIn .lost)) { LinkPort.initial with
      toPartnership := [⟨2, .hello 9 (some 1)⟩] }
    s.engine.executing = none ∧ s.link.toPartnership = [⟨2, .hello 9 (some 1)⟩] ∧ s.part.state = .lost ∧
      9 ≠ s.unitId ∧ s.part.partnerUnit = some 9 ∧ s.part.partnerEpoch = some 2 ∧
      s.part.confirmedBy (some 1) ∧ (s.flow 5).suspended = true ∧ (s.flow 5).state = .opened ∧
      (s.flow 6).suspended = false :=
  ⟨rfl, rfl, rfl, by decide +kernel, rfl, rfl, ⟨1, rfl, rfl⟩, by decide +kernel⟩

/-- A CLOSING and a DRAINING flow that resume with nothing left to send. -/
theorem test_witness_PartnershipRegained_closing :
    let closing := { inState .closing with suspended := true }
    let draining := { inState .draining with suspended := true, drainOrigin := some .localEnd }
    let s := fun fl => (small profile5 fl).flow 5
    ((s closing).state = .closing ∧ (s closing).pendingBlock = none) ∧
    ((s draining).drainOrigin = some .localEnd ∧ (s draining).sendQueue = [] ∧ (s draining).window = [] ∧
      (s draining).pendingBlock = none) := by decide +kernel

/-- R67: the effect at a suspended DRAINING flow of origin PEER with a FLOW_CLOSE deferred: the order of the
lifecycle blocks, the account and the causes. -/
theorem test_witness_PartnershipRegained_peer :
    let draining := { inState .draining with
      suspended := true, drainOrigin := some .peerEnd, deferred := some ⟨.flowClose, 4⟩
      reorder := [⟨1, .frame [9]⟩] }
    let s := withLink (withPart (small profile5 draining) (partIn .lost)) { LinkPort.initial with
      toPartnership := [⟨2, .hello 9 (some 1)⟩] }
    let t := after .helloReceived s
    ((s.flow 5).endsAtRegain = true ∧ (s.flow 5).owesAtRegain = true ∧ (s.flow 6).endsAtRegain = false ∧
      (s.flow 5).causesAtRegain 5 = [.completion 4 0x21 .done none,
        .flowState 5 .draining .closed .drained]) ∧
    ((t.flow 5).state = .closed ∧ (t.flow 5).pendingBlock = some .closeAck ∧ t.link.lifecycleOrder = [5] ∧
      s.held 5 = 2 ∧ t.held 5 = 1 ∧ readAt t.pool.reservation 5 = 0 ∧ t.pool.free = s.pool.free + 1) := by
  decide +kernel

theorem test_witness_SilenceSuspendsFlows :
    let s := withPart (small profile5 (inState .opening)) (partIn .partnered)
    s.engine.executing = none ∧ s.part.state = .partnered ∧ s.part.silenceTimer = .running 0 ∧
      (s.flow 5).state = .opening := by decide +kernel

theorem test_witness_PartnershipRestarts :
    let s := withPart (small profile5 (inState .opened)) (partIn .lost)
    let u := greeted (partIn .partnered) ⟨3, .hello 9 none⟩
    (s.engine.executing = none ∧ s.part.state = .lost ∧ s.part.holdTimer = .running 0) ∧
    (u.engine.executing = none ∧ u.link.toPartnership = [⟨3, .hello 9 none⟩] ∧ u.part.state = .partnered ∧
      9 ≠ u.unitId ∧ u.part.partnerUnit = some 9 ∧ u.part.partnerEpoch ≠ some 3 ∧
      ¬ u.part.confirmedBy none) := by
  refine ⟨by decide +kernel, rfl, rfl, rfl, by decide +kernel, rfl, by decide +kernel, ?_⟩
  rintro ⟨own, h, -⟩
  cases h

/-- R80 step 5: a new epoch, and this bridge's own epoch as seen epoch. -/
theorem test_witness_PartnershipRestarts_confirmed :
    let s := greeted { partIn .lost with deferredJoin := some 4 } ⟨3, .hello 9 (some 1)⟩
    s.engine.executing = none ∧ s.link.toPartnership = [⟨3, .hello 9 (some 1)⟩] ∧ s.part.state = .lost ∧
      9 ≠ s.unitId ∧ s.part.partnerUnit = some 9 ∧ s.part.partnerEpoch ≠ some 3 ∧
      s.part.confirmedBy (some 1) :=
  ⟨rfl, rfl, rfl, by decide +kernel, rfl, by decide +kernel, 1, rfl, rfl⟩

/-- R66, R68, R69: what an OPENING flow with a FLOW_OPEN deferred and a DRAINING flow with a FLOW_CLOSE deferred raise as
the partnership is lost, as its hold runs out, as the partner restarts, as it leaves and as this bridge leaves. -/
theorem test_witness_flow_causes :
    let s := fun state code => withPart (small profile5 { inState state with deferred := some ⟨code, 4⟩ })
      (partIn .partnered)
    let opening := s .opening .flowOpen
    let draining := s .draining .flowClose
    (opening.flowCauses Flow.causesAtLoss =
        [.completion 4 0x20 .partnerLost none, .flowState 5 .opening .closed .partnerLost] ∧
      draining.flowCauses Flow.causesAtLoss = []) ∧
    (opening.flowCauses (Flow.causesAtRestart .partnerLost .partnerLost) =
        [.completion 4 0x20 .partnerLost none, .flowState 5 .opening .closed .partnerLost] ∧
      draining.flowCauses (Flow.causesAtRestart .partnerRestart .partnerRestart) =
        [.completion 4 0x21 .aborted (some .partnerRestart),
          .flowState 5 .draining .failed .partnerRestart]) ∧
    draining.flowCauses Flow.causesAtLeave =
      [.completion 4 0x21 .aborted (some .partnerLeft), .flowState 5 .draining .failed .partnerLeft] ∧
    opening.flowCauses Flow.causesAtLocalLeave =
      [.completion 4 0x20 .aborted none, .flowState 5 .opening .closed .localLeave] := by decide +kernel

theorem test_witness_PartnershipEnds :
    let s := greeted (partIn .lost) ⟨2, .leave⟩
    let u := greeted (partIn .joining) ⟨2, .leave⟩
    (s.engine.executing = none ∧ (∀ item ∈ s.engine.linkReply, item.restartResponse = false) ∧
      s.link.toPartnership = [⟨2, .leave⟩] ∧ s.part.state = .lost ∧ s.part.partnerEpoch = some 2) ∧
    (u.part.state = .joining ∧ u.part.joinTimer = .running 0 ∧ u.link.toPartnership = [⟨2, .leave⟩]) := by
  decide +kernel

theorem test_witness_BulkReceived :
    let s := withLink (small profile5 (inState .closed)) { LinkPort.initial with
      toBulk := [⟨2, .bulk 3 frame0900⟩] }
    let full := { s with pool := { s.pool with bulkHeld := 32 } }
    (s.engine.executing = none ∧ s.link.toBulk = [⟨2, .bulk 3 frame0900⟩] ∧ s.part.state = .partnered ∧
      s.part.partnerEpoch = some 2 ∧ (readFrame frame0900).etherType ≠ 0x9C41 ∧
      s.pool.bulkHeld < s.params.bulkCap ∧ 1 ≤ s.pool.sharedFree) ∧
    full.params.bulkCap ≤ full.pool.bulkHeld := by decide +kernel

theorem test_witness_BulkReceived_request :
    let frame := formManagement State.reset.params.stationAddress 7 State.reset.unitId 1 3 0x24 0 [5]
    let v := readFrame frame
    let s := { withLink (asking (small profile5 (inState .closed)) 0x01 []) { LinkPort.initial with
      toBulk := [⟨2, .bulk 0 frame⟩] } with
        engine := { Engine.initial with binding := .bound 7 .link 600 1 } }
    v.etherType = 0x9C41 ∧ v.destination = s.params.stationAddress ∧ v.destination ≠ broadcastAddress ∧
      readManagement v.payload = some ⟨1, 1, 3, 0x24, s.unitId, [5]⟩ ∧ isGroup v.source = false ∧
      s.engine.state = .ready ∧ s.engine.binding = .bound v.source .link 600 1 ∧
      s.engine.recorded v.source 3 = none ∧ s.engine.queued v.source 3 = false ∧
      s.engine.requests.length < 8 := by decide +kernel

/-! ## The hypotheses: requests (with `asking_takes`) -/

/-- A management frame to this station with tag 3, from address 7. -/
def toStation (kind : Nat) (code : Byte) (body : List Byte) : Frame :=
  formManagement State.reset.params.stationAddress 7 State.reset.unitId kind 3 code 0 body

/-- A frame for intake by the wire, and one in an accepted BULK block. -/
theorem test_witness_IntakeAnswersOrIgnores_brings :
    let s := small profile5 (inState .closed)
    let r := withCheck (toStation 1 0x24 [5])
    let u := withLink s { s.link with toBulk := [⟨2, .bulk 0 (toStation 1 0x24 [5])⟩] }
    s.Brings (.wireFrameReception r false) .wire (readFrame (checkedPart r)) s ∧
      ∃ after, u.Brings .bulkReceived .link (readFrame (toStation 1 0x24 [5])) after :=
  ⟨⟨by decide +kernel, .inl ⟨_, rfl, by decide +kernel, rfl, rfl, rfl, .inl (by decide +kernel)⟩⟩,
    _, ⟨by decide +kernel, .inr ⟨2, 0, _, [], rfl, rfl, rfl, rfl, rfl, rfl, by decide +kernel, rfl⟩⟩⟩

/-- A payload that is too short; a frame that the screen lets through and a notice, which it does not; the manager
and another address; a copy of an answered request, a copy of a queued one and a full queue; a path with and without
room. -/
theorem test_witness_IntakeAnswersOrIgnores :
    let v := readFrame (toStation 1 0x24 [5])
    let h : ManagementHeader := ⟨1, 1, 3, 0x24, State.reset.unitId, [5]⟩
    let s := asking State.reset 0x24 [5]
    let with' := fun requests record => { s with
      engine := { s.engine with requests := requests, record := record } }
    let full := { s with wire := { s.wire with managementEgress := List.replicate 8 ⟨[1], false⟩ } }
    let other : Request := ⟨7, .wire, 4, 0x24, [5]⟩
    (readManagement [1, 1] = none ∧ readManagement v.payload = some h ∧ s.engine.state = .ready) ∧
    (s.Screens v h ∧ ¬ s.Screens v { h with kind := 3 }) ∧
    (s.boundTo v.source = true ∧ State.reset.boundTo v.source = false ∧ h.code ≠ 0x01 ∧ h.code ≠ 0x02) ∧
    ((with' [] [⟨7, 3, [9]⟩]).engine.record.filter (fun e => e.source == v.source && e.tag == h.tag) =
        [⟨7, 3, [9]⟩] ∧
      (∃ r ∈ (with' [request 0x24 [5]] []).engine.requests, r.source = v.source ∧ r.tag = h.tag) ∧
      (with' (List.replicate 8 other) []).engine.requests.length = 8 ∧
      (∀ r ∈ (with' (List.replicate 8 other) []).engine.requests, r.tag ≠ h.tag)) ∧
    (s.pathRoom 8 4 .wire = true ∧ full.pathRoom 8 4 .wire = false) := by
  unfold State.Screens
  decide +kernel

/-- R156: the binding was given up while a FLOW_STATUS waited. -/
theorem test_witness_IntakeAnswersOrIgnores_unbound :
    let s := { asking State.reset 0x24 [5] with
      engine := { (asking State.reset 0x24 [5]).engine with binding := .unbound } }
    s.engine.requests = [request 0x24 [5]] ∧ s.engine.state = .ready ∧ s.pathRoom 8 4 .wire = true ∧
      (∀ n ∈ s.notices.queue, n.held = none) ∧ (request 0x24 [5]).code ≠ 0x01 ∧
      (request 0x24 [5]).code ≠ 0x02 ∧ s.boundTo (request 0x24 [5]).source = false ∧
      commandOfCode (request 0x24 [5]).code = .flowStatus := by decide +kernel

theorem test_witness_IdentityAndStatusAnswers :
    (asking (small profile5 (inState .closed)) 0x01 []).Takes (request 0x01 []) 0x01 ∧
      (asking (small profile5 (inState .closed)) 0x32 []).Takes (request 0x32 []) 0x32 ∧
      (asking (small profile5 (inState .closed)) 0x42 [0]).Takes (request 0x42 [0]) 0x42 ∧
      (request 0x42 [0]).body ≠ [] ∧
      (asking (small profile5 (inState .closed)) 0x45 []).Takes (request 0x45 []) (request 0x45 []).code ∧
      (0x45 : Byte) ∉ requestCodes :=
  ⟨asking_takes _ _ _ _, asking_takes _ _ _ _, asking_takes _ _ _ _, by decide +kernel, asking_takes _ _ _ _, by decide +kernel⟩

/-- An IDENTIFY of an address that is not bound, while nothing is bound. -/
theorem test_witness_IdentityAndStatusAnswers_unbound :
    let s := { State.reset with engine := { Engine.initial with requests := [request 0x01 []] } }
    s.Takes (request 0x01 []) 0x01 ∧ s.engine.binding = .unbound :=
  ⟨⟨rfl, rfl, rfl, rfl, .inl rfl, by intro n hn; cases hn⟩, rfl⟩

/-- R182: bodies at and beyond the ends of what fits: a length, a lease, a flag, a code, a flow and a presence byte. -/
theorem test_witness_IdentityAndStatusAnswers_misfit :
    (∀ code body, (asking (small profile5 (inState .closed)) code body).Takes (request code body)
      (request code body).code) ∧
    (¬ bodyFits 0x02 [2, 89, 0] ∧ ¬ bodyFits 0x02 [0, 0, 0] ∧ ¬ bodyFits 0x02 [0, 1, 2] ∧
      ¬ bodyFits 0x03 [0] ∧ ¬ bodyFits 0x10 [2, 0, 0, 1] ∧ ¬ bodyFits 0x10 [0, 3, 0, 1] ∧
      ¬ bodyFits 0x12 [0] ∧ ¬ bodyFits 0x13 [0, 0, 0] ∧ ¬ bodyFits 0x20 [64] ∧ ¬ bodyFits 0x21 [] ∧
      ¬ bodyFits 0x22 [5, 0] ∧ ¬ bodyFits 0x23 [255] ∧ ¬ bodyFits 0x30 [0] ∧ ¬ bodyFits 0x31 [0]) ∧
    (¬ bodyFits 0x40 [2, 0, 0] ∧ ¬ bodyFits 0x40 [1, 64, 0] ∧ ¬ bodyFits 0x40 [0, 0, 2] ∧
      ¬ bodyFits 0x41 (List.replicate 24 0) ∧
      ¬ bodyFits 0x41 ([0x20] ++ List.replicate 14 0 ++ [2] ++ List.replicate 9 0) ∧
      ¬ bodyFits 0x43 [8] ∧ ¬ bodyFits 0x44 [0] ∧ ¬ bodyFits 0x45 []) ∧
    (bodyFits 0x02 [2, 88, 1] ∧ bodyFits 0x20 [63] ∧ bodyFits 0x40 [0, 64, 1] ∧ bodyFits 0x43 [7]) :=
  ⟨fun _ _ => asking_takes _ _ _ _, by simp [bodyFits], by simp [bodyFits], by simp [bodyFits]⟩

theorem test_witness_FlowStatusAnswers :
    (asking (small profile5 (inState .opened)) 0x24 [63]).Takes (request 0x24 [63]) 0x24 ∧
      (asking (small profile5 (inState .opened)) 0x24 [64]).Takes (request 0x24 [64]) 0x24 ∧
      (request 0x24 [63]).body = [BitVec.ofNat 8 (63 : FlowId).val] ∧
      (∀ f : FlowId, (request 0x24 [64]).body ≠ [BitVec.ofNat 8 f.val]) :=
  ⟨asking_takes _ _ _ _, asking_takes _ _ _ _, by decide +kernel, by decide +kernel⟩

theorem test_witness_ReadTableAnswers :
    (∀ body, (asking (small profile5 (inState .opened)) 0x10 body).Takes (request 0x10 body) 0x10) ∧
      (request 0x10 [0, 0, 112, 16]).body = [BitVec.ofNat 8 (BankId.code .a), 0, 112, 16] ∧
      (112 : Byte).toNat + (16 : Byte).toNat ≤ 128 ∧ (63 : Byte).toNat + (1 : Byte).toNat ≤ 64 ∧
      128 < (113 : Byte).toNat + (16 : Byte).toNat ∧ 64 < (64 : Byte).toNat + (1 : Byte).toNat ∧
      16 < (17 : Byte).toNat ∧ 2 < (3 : Byte).toNat :=
  ⟨fun _ => asking_takes _ _ _ _, by decide +kernel⟩

theorem test_witness_BindingChanges :
    let s := fun body => asking (small profile5 (inState .closed)) 0x02 body
    ((s [2, 88, 0]).Takes (request 0x02 [2, 88, 0]) 0x02 ∧
      (2 : Byte).toNat * 256 + (88 : Byte).toNat = 600 ∧ (s [2, 88, 0]).boundTo 7 = true) ∧
    (600 < (2 : Byte).toNat * 256 + (89 : Byte).toNat ∧ 1 < (2 : Byte).toNat) ∧
    (asking (small profile5 (inState .closed)) 0x03 []).Takes (request 0x03 []) 0x03 ∧
    (s []).engine.binding = .bound 7 .wire 600 600000 :=
  ⟨⟨asking_takes _ _ _ _, by decide +kernel, by decide +kernel⟩, by decide +kernel, asking_takes _ _ _ _, rfl⟩

/-- R154: another address asks for a binding that is held. -/
theorem test_witness_BindingChanges_held :
    let s := { asking State.reset 0x02 [0, 1, 0] with
      engine := { (asking State.reset 0x02 [0, 1, 0]).engine with binding := .bound 8 .link 1 1 } }
    s.Takes (request 0x02 [0, 1, 0]) 0x02 ∧ s.engine.binding = .bound 8 .link 1 1 ∧
      8 ≠ (request 0x02 [0, 1, 0]).source :=
  ⟨⟨rfl, rfl, rfl, rfl, .inr (.inl rfl), by intro n hn; cases hn⟩, rfl, by decide +kernel⟩

/-- R153, R168: the lease timer has run out. -/
theorem test_witness_BindingChanges_lease :
    let s := asking State.reset 0x01 []
    let late := { s with engine := { s.engine with binding := .bound 7 .wire 600 0 } }
    late.engine.binding = .bound 7 .wire 600 0 := rfl

theorem test_witness_WriteTableWrites :
    (∀ body, (asking (small profile5 (inState .closed)) 0x11 body).Takes (request 0x11 body) 0x11) ∧
      (1 ≤ [profile5].length ∧ (63 : Byte).toNat + [profile5].length ≤ 64 ∧
        ∀ p ∈ [profile5], p.inRange = true) ∧
      ((classEntryBytes ClassEntry.initial).length = 33 ∧
        classEntryOfBytes (classEntryBytes ClassEntry.initial) = some ClassEntry.initial) ∧
      defaultOfBytes [1, 3] = some (.bulk 3) ∧
      profileOfBytes (profileBytes { profile5 with window := 65 }) = none :=
  ⟨fun _ => asking_takes _ _ _ _, by decide +kernel, by decide +kernel, by decide +kernel, by decide +kernel⟩

/-- Two classification entries to the end of the table, the second of them bad; a bad default action; each kind of
request that R123 refuses. -/
theorem test_witness_WriteTableWrites_refused :
    let good := { ClassEntry.initial with valid := true, etherType := some 0x0800, action := .bulk 1 }
    let bad : List Byte := List.replicate 29 0 ++ [1, 4, 0, 0]
    (∀ e ∈ [(classEntryBytes good, good), (classEntryBytes ClassEntry.initial, ClassEntry.initial)],
      e.1.length = 33 ∧ classEntryOfBytes e.1 = some e.2) ∧ (126 : Byte).toNat + 2 ≤ 128 ∧
    (classEntryOfBytes (classEntryBytes good)).isSome = true ∧ bad.length = 33 ∧
      classEntryOfBytes bad = none ∧ ([] : List Byte).length = ((2 : Byte).toNat - 1 - 1) * 33 ∧
    defaultOfBytes [1, 4] = none ∧ (2 < (3 : Byte).toNat ∧ 16 < (17 : Byte).toNat) ∧
    (128 < (127 : Byte).toNat + (2 : Byte).toNat ∧ 64 < (64 : Byte).toNat + (1 : Byte).toNat ∧
      1 < (1 : Byte).toNat + (1 : Byte).toNat) ∧
    (bad ++ [0]).length ≠ (1 : Byte).toNat * 33 ∧ (request 0x11 [0, 0]).body.length < 3 := by decide +kernel

theorem test_witness_CopyBankCopies :
    (asking (small profile5 (inState .closed)) 0x12 []).Takes (request 0x12 []) 0x12 ∧
      (request 0x12 []).body = [] := ⟨asking_takes _ _ _ _, rfl⟩

theorem test_witness_CommitChecksAndSwaps :
    let s := fun state (b : Bank) => { asking (small profile5 (inState state)) 0x13 (beBytes 4 0) with
      tables := { (small profile5 (inState state)).tables with bankB := b } }
    let dangling := { bank5 profile5 with profiles := Bank.initial.profiles }
    let wider := bank5 { profile5 with window := 9 }
    ((s .closed (bank5 profile5)).Takes (request 0x13 (beBytes 4 0)) 0x13 ∧
      (0 : BitVec 32) = (s .closed (bank5 profile5)).tables.generation) ∧
    (readAt dangling.entries 0).action = .flow 5 ∧ (readAt dangling.profiles 5).mode = .disabled ∧
    (((s .opened wider).flow 5).state ≠ .closed ∧
      (readAt (s .opened wider).tables.shadowBank.profiles 5).window ≠ ((s .opened wider).profile 5).window) ∧
    (∀ i, (bank5 profile5).dangling i = false) ∧ ((s .opened (bank5 profile5)).firstStructureChange = none) :=
  ⟨⟨⟨rfl, rfl, rfl, rfl, .inr (.inr rfl), by intro n hn; cases hn⟩, rfl⟩, by decide +kernel⟩

theorem test_witness_FlowOpenTaken :
    let s := fun p fl => asking (small p fl) 0x20 [5]
    let waiting := { inState .opening with deferred := some ⟨.flowOpen, 1⟩ }
    ((∀ p fl, (s p fl).Takes (request 0x20 [5]) 0x20) ∧
      (request 0x20 [5]).body = [BitVec.ofNat 8 (5 : FlowId).val]) ∧
    (((s profile5 waiting).flow 5).state = .opening ∧
      ((s profile5 waiting).flow 5).deferred = some ⟨.flowOpen, 1⟩) ∧
    (((s profile5 (inState .failed)).flow 5).state ≠ .closed) ∧
    (((s Profile.initial (inState .closed)).flow 5).state = .closed ∧
      ((s Profile.initial (inState .closed)).profile 5).mode = .disabled) ∧
    (((s profile5 (inState .closed)).profile 5).mode = .reliable ∧
      (s profile5 (inState .closed)).part.state = .partnered ∧
      ((s profile5 (inState .closed)).profile 5).reserve ≤ (s profile5 (inState .closed)).pool.sharedFree) :=
  ⟨⟨fun _ _ => asking_takes _ _ _ _, by decide +kernel⟩, by decide +kernel, by decide +kernel, by decide +kernel, by decide +kernel⟩

/-- R52: FLOW_OPEN without a partner, and with no room for the reserve. -/
theorem test_witness_FlowOpenTaken_refused :
    let s := asking (withPart (small profile5 (inState .closed)) (partIn .lost)) 0x20 [5]
    let u := { asking (small profile5 (inState .closed)) 0x20 [5] with
      pool := { Pool.initial with free := 1 } }
    (s.Takes (request 0x20 [5]) 0x20 ∧ s.part.state ≠ .partnered) ∧
      (u.Takes (request 0x20 [5]) 0x20 ∧ u.pool.sharedFree < (u.profile 5).reserve) :=
  ⟨⟨asking_takes_part _ _ _ _ _, by decide +kernel⟩,
    ⟨rfl, rfl, rfl, rfl, .inr (.inr rfl), by intro n hn; cases hn⟩, by decide +kernel⟩

theorem test_witness_FlowCloseAbortReset :
    let s := fun code fl => asking (small profile5 fl) code [5]
    let busy := { inState .opened with sendQueue := [frame0800] }
    let rested := { s 0x23 (inState .failed) with pool := Pool.initial }
    (∀ code fl, (s code fl).Takes (request code [5]) code) ∧
    (((s 0x21 busy).flow 5).state = .opened ∧ ((s 0x21 busy).flow 5).busyDraining) ∧
    ¬ ((s 0x21 (inState .opened)).flow 5).busyDraining ∧
    (((s 0x22 busy).flow 5).inUse = true ∧
      ((s 0x22 busy).flow 5).collectedBuffers ≤ (s 0x22 busy).held 5 ∧
      ((s 0x22 (inState .closed)).flow 5).inUse = false) ∧
    (rested.Takes (request 0x23 [5]) 0x23 ∧ (rested.flow 5).state = .failed ∧ (rested.flow 5).atRest ∧
      readAt rested.pool.reservation 5 = 0) := by
  refine ⟨fun _ _ => asking_takes _ _ _ _, ⟨by decide +kernel, .inr (.inl (by decide +kernel))⟩, ?_, by decide +kernel,
    ⟨rfl, rfl, rfl, rfl, .inr (.inr rfl), by intro n hn; cases hn⟩, by decide +kernel, ?_, by decide +kernel⟩
  · unfold Flow.busyDraining
    decide +kernel
  · unfold Flow.atRest
    decide +kernel

theorem test_witness_JoinAndLeave :
    let s := fun code state => asking (withPart (small profile5 (inState .opened)) (partIn state)) code []
    (∀ code state, (s code state).Takes (request code []) code) ∧ (s 0x30 .silent).part.state = .silent ∧
      ((s 0x30 .joining).part.state = .joining ∧ (s 0x30 .joining).part.deferredJoin = none) ∧
      ((s 0x31 .lost).part.state ≠ .silent ∧
        ∀ item ∈ (s 0x31 .lost).engine.linkReply, item.restartResponse = false) :=
  ⟨fun _ _ => asking_takes_part _ _ _ _ _, by decide +kernel⟩

/-- A presence byte of 0xFF with every parameter at an end of its range, and a bulk cap below what is held. -/
theorem test_witness_SetParamsReplaces :
    (∀ body, (asking (small profile5 (inState .closed)) 0x41 body).Takes (request 0x41 body) 0x41) ∧
      (isGroup 7 = false ∧ (7 : Address) ≠ 0) ∧
      (100 ≤ 5000 ∧ 5000 ≤ 5000 ∧ 50 ≤ 2000 ∧ 2000 < 5000 ∧ 600 ≤ 600 ∧ 128 ≤ 128 ∧ 512 ≤ 512) ∧
      (asking (small profile5 (inState .closed)) 0x41 []).pool.bulkHeld ≤ 0 ∧
      (asking (small profile5 (inState .closed)) 0x41 []).part.state ≠ .silent ∧
      0 < (withWire WirePort.initial).pool.bulkHeld :=
  ⟨fun _ => asking_takes _ _ _ _, by decide +kernel⟩

theorem test_witness_NoticeMaskAndCounters :
    (∀ code body, (asking (small profile5 (inState .closed)) code body).Takes (request code body) code) ∧
      (7 : Byte).toNat < 8 ∧ 8 ≤ (8 : Byte).toNat ∧ (63 : Byte).toNat = (63 : FlowId).val ∧
      63 < (64 : Byte).toNat ∧ 1 < (2 : Byte).toNat := ⟨fun _ _ => asking_takes _ _ _ _, by decide +kernel⟩

theorem test_witness_RestartApplied :
    let s := fun state => asking (withPart (small profile5 (inState .closed)) (partIn state)) 0x44 []
    let byLink : Request := ⟨7, .link, 3, 0x44, []⟩
    let u := { s .silent with engine := { (s .silent).engine with requests := [byLink] } }
    let w := withWire { WirePort.initial with
      transmitter := .sending .management [1], managementEgress := [⟨[1], true⟩] }
    ((s .lost).Takes (request 0x44 []) 0x44 ∧ (request 0x44 []).origin = .wire ∧
      (s .lost).part.state ≠ .silent) ∧
    (u.Takes byLink 0x44 ∧ byLink.origin = .link ∧ u.part.state = .silent) ∧
    (w.wire.transmitter = .sending .management [1] ∧ w.wire.managementEgress = [⟨[1], true⟩] ∧
      w.part.state = .partnered ∧ ∀ c, readAt w.wire.classQueues c = []) ∧
    (withLink w { w.link with transmitter := .sending .restartLeave [] }).link.transmitter =
      .sending .restartLeave [] :=
  ⟨⟨asking_takes_part _ _ _ _ _, rfl, by decide +kernel⟩,
    ⟨⟨rfl, rfl, rfl, rfl, .inr (.inr rfl), by intro n hn; cases hn⟩, rfl, rfl⟩, by decide +kernel, rfl⟩

/-- R152, R166: the response of a RESTART by the link at the end of its block, and untaken as the partnership
becomes SILENT. -/
theorem test_witness_RestartApplied_link :
    let s := fun state transmitter b =>
      let g := greeted (partIn state) b
      { withLink g { g.link with transmitter := transmitter } with
        engine := { g.engine with linkReply := [⟨[1], true⟩] } }
    let sends := fun state => s state (.sending .linkReply [1]) ⟨2, .keepalive⟩
    let left := s .lost .idle ⟨2, .leave⟩
    let late := s .joining .idle ⟨2, .keepalive⟩
    (∀ state ∈ [LinkState.partnered, .silent],
      (sends state).link.transmitter = .sending .linkReply [1] ∧
      (sends state).engine.linkReply = [⟨[1], true⟩] ∧ (sends state).part.state = state) ∧
    (left.engine.executing = none ∧ left.link.transmitter = .idle ∧
      (∃ item ∈ left.engine.linkReply.drop 0, item.restartResponse = true) ∧
      left.link.toPartnership = [⟨2, .leave⟩] ∧ left.part.state = .lost ∧
      left.part.partnerEpoch = some 2) ∧
    ((∃ item ∈ late.engine.linkReply.drop 0, item.restartResponse = true) ∧ late.part.state = .joining ∧
      late.part.joinTimer = .running 0) := by decide +kernel

/-- R91, R141, R147: a frame and a block are in transmission when a LEAVE discards the RESTART response untaken. Their
transmissions go on, of no owner; and a slot that is open stays open. -/
theorem test_witness_RestartApplied_transmitting :
    let g := greeted (partIn .lost) ⟨2, .leave⟩
    let s := fun transmitter => { withLink g { g.link with transmitter := transmitter } with
      wire := { WirePort.initial with transmitter := .sending (.account (.flow 5)) [6], linkUp := true }
      engine := { g.engine with linkReply := [⟨[1], true⟩] } }
    let t := fun transmitter => after .leaveReceived (s transmitter)
    ((t (.sending .bulkBuffer [4])).wire.transmitter = .sending .abandoned [6] ∧
      (t (.sending .bulkBuffer [4])).wire.linkUp = true ∧
      (t (.sending .bulkBuffer [4])).link.transmitter = .sending .plain [4]) ∧
    (t .slotOpen).link.transmitter = .slotOpen ∧ (t .slotOpen).part = Partnership.initial := by decide +kernel

end Sys2Proof.Tests
end

namespace Sys2Proof.Machine

/-! ## What the laws of a flow come to in each of its states -/

/-- The laws of a flow whose traffic runs (OPEN, DRAINING, CLOSING), without the case distinctions of
`Flow.Whole`. -/
structure Flow.TrafficWhole (fl : Flow) (w : Nat) : Prop where
  window : fl.windowWhole w
  order : fl.orderWhole
  reorder : fl.reorderWhole w
  since : fl.dataSince ≤ 32
  acknowledged : fl.state = .closing → fl.sendQueue = [] ∧ fl.window = []
  timer : fl.state ≠ .closing → fl.retxTimer.isRunning = fl.anyInFlight
  origin : fl.drainOrigin.isSome = (fl.state == .draining)
  owesNoOpen : ∀ window order, fl.pendingBlock ≠ some (.openFlow window order)
  owesClose : fl.pendingBlock = some .close → fl.state = .closing

theorem Flow.takesBlocks_iff (fl : Flow) :
    fl.takesBlocks = true ↔ fl.state = .opened ∨ fl.state = .draining ∨ fl.state = .closing := by
  unfold Flow.takesBlocks
  cases fl.state <;> simp

theorem Flow.inUse_eq_false_iff (fl : Flow) :
    fl.inUse = false ↔ fl.state = .closed ∨ fl.state = .failed := by
  unfold Flow.inUse
  cases fl.state <;> simp

theorem Flow.whole_iff_traffic {fl : Flow} {w : Nat} (h : fl.takesBlocks = true) :
    fl.Whole w ↔ fl.TrafficWhole w := by
  have hs := fl.takesBlocks_iff.1 h
  have hu : fl.inUse = true := by rcases hs with hs | hs | hs <;> simp [Flow.inUse, hs]
  have ho : fl.state ≠ .opening := by rcases hs with hs | hs | hs <;> simp [hs]
  constructor
  · intro hw
    exact {
      window := hw.window hu
      order := hw.order
      reorder := hw.reorder
      since := hw.since
      acknowledged := hw.acknowledged
      timer := fun hc => hw.timer (by tauto)
      origin := hw.origin
      owesNoOpen := fun _ _ hp => ho (hw.owed.1 _ _ hp)
      owesClose := hw.owed.2 }
  · intro hw
    exact {
      window := fun _ => hw.window
      order := hw.order
      reorder := hw.reorder
      since := hw.since
      atRest := fun hn => by simp [hu] at hn
      fresh := fun hn => absurd hn ho
      acknowledged := hw.acknowledged
      timer := fun hc => hw.timer (by rcases hc with hc | hc <;> simp [hc])
      origin := hw.origin
      owed := ⟨fun _ _ hp => absurd hp (hw.owesNoOpen _ _), hw.owesClose⟩ }

theorem Flow.orderWhole_of_empty {fl : Flow} (h : fl.window = []) (ht : fl.txOrder = []) : fl.orderWhole := by
  simp [Flow.orderWhole, h, ht]

theorem Flow.reorderWhole_of_empty {fl : Flow} (h : fl.reorder = []) (w : Nat) : fl.reorderWhole w := by
  simp [Flow.reorderWhole, h]

/-- In CLOSED and FAILED the laws are that of R51. -/
theorem Flow.whole_iff_atRest {fl : Flow} {w : Nat} (h : fl.inUse = false) : fl.Whole w ↔ fl.atRest := by
  have hs := fl.inUse_eq_false_iff.1 h
  refine ⟨fun hw => hw.atRest h, fun hr => ?_⟩
  obtain ⟨-, hwin, hord, hreo, -, -, hsince, -, -, -, -, hdrain, -, hpend⟩ := id hr
  constructor
  case window => simp [h]
  case order => exact Flow.orderWhole_of_empty hwin hord
  case reorder => exact Flow.reorderWhole_of_empty hreo w
  case since => omega
  case atRest => exact fun hn => hr
  case owed =>
    constructor
    · intro _ _ hp; simpa [LifecycleBlock.owedAtRest] using hpend _ hp
    · intro hp; simpa [LifecycleBlock.owedAtRest] using hpend _ hp
  all_goals rcases hs with hs | hs <;> simp [hs, hdrain]

/-- In OPENING the context is fresh and owes at most an OPEN or a block that any flow may owe. -/
theorem Flow.whole_iff_opening {fl : Flow} {w : Nat} (h : fl.state = .opening) :
    fl.Whole w ↔ fl.fresh ∧ fl.drainOrigin = none ∧ fl.pendingBlock ≠ some .close := by
  constructor
  · intro hw
    refine ⟨hw.fresh h, ?_, fun hp => by simpa [h] using hw.owed.2 hp⟩
    exact Option.not_isSome_iff_eq_none.1 (by rw [hw.origin, h]; decide)
  · rintro ⟨hf, hd, hp⟩
    obtain ⟨-, hwin, hord, hreo, hlow, hnext, -, -, -, -, hsince, -⟩ := id hf
    constructor
    case window => intro _; simp [Flow.windowWhole, hwin, hlow, hnext]
    case order => exact Flow.orderWhole_of_empty hwin hord
    case reorder => exact Flow.reorderWhole_of_empty hreo w
    case since => omega
    case fresh => exact fun _ => hf
    case owed => exact ⟨fun _ _ _ => h, fun h' => absurd h' hp⟩
    all_goals simp [h, hd, Flow.inUse]

/-! ## Windows (R4, R6) -/

/-- R4 reads the sequences of the window, L and N only. -/
theorem Flow.windowWhole.congr {fl fl' : Flow} {w : Nat} (h : fl.windowWhole w)
    (hs : fl'.window.map (·.seq) = fl.window.map (·.seq)) (hl : fl'.lower = fl.lower)
    (hn : fl'.next = fl.next) : fl'.windowWhole w := by
  have hlen : fl'.window.length = fl.window.length := by simpa using congrArg List.length hs
  simpa only [Flow.windowWhole, hs, hl, hn, hlen] using h

/-- R6 reads the sequences of the window and of the list only. -/
theorem Flow.orderWhole.congr {fl fl' : Flow} (h : fl.orderWhole)
    (hs : fl'.window.map (·.seq) = fl.window.map (·.seq)) (ht : fl'.txOrder.Perm fl.txOrder) :
    fl'.orderWhole := by
  unfold Flow.orderWhole at *
  rw [hs]
  exact ht.trans h

theorem map_seq_of_keeps {g : WindowEntry → WindowEntry} (hg : ∀ e, (g e).seq = e.seq) (l : List WindowEntry) :
    (l.map g).map (·.seq) = l.map (·.seq) := by
  simp [List.map_map, Function.comp_def, hg]

theorem seq_add_injective {lower : Seq} {i j : Nat} (hi : i < 4096) (hj : j < 4096)
    (h : lower + BitVec.ofNat 12 i = lower + BitVec.ofNat 12 j) : i = j := by
  have := congrArg BitVec.toNat h
  simp only [BitVec.toNat_add, BitVec.toNat_ofNat] at this
  omega

/-- R4: the sequences of a window are distinct. -/
theorem Flow.windowWhole.nodup {fl : Flow} {w : Nat} (h : fl.windowWhole w) (hw : w ≤ 64) :
    (fl.window.map (·.seq)).Nodup := by
  obtain ⟨hs, -, hlen⟩ := h
  rw [hs]
  refine List.Nodup.map_on (fun i hi j hj e => ?_) List.nodup_range
  rw [List.mem_range] at hi hj
  exact seq_add_injective (by omega) (by omega) e

/-- R6: an entry sent again moves to the end of the list, which still holds every sequence once. -/
theorem perm_moveToEnd {l : List Seq} {q : Seq} (hn : l.Nodup) (hq : q ∈ l) :
    (l.filter (· ≠ q) ++ [q]).Perm l := by
  have h1 : (l.filter (· ≠ q)).Perm (l.erase q) := by
    rw [hn.erase_eq_filter]
    exact List.Perm.of_eq (List.filter_congr fun x _ => by rw [Bool.eq_iff_iff]; simp)
  exact (List.perm_append_singleton q _).trans ((h1.cons q).trans (List.perm_cons_erase hq).symm)

@[simp] theorem sack_seq (e : WindowEntry) : e.sack.seq = e.seq := by
  unfold WindowEntry.sack
  split <;> rfl

@[simp] theorem lose_seq (e : WindowEntry) : e.lose.seq = e.seq := by
  unfold WindowEntry.lose
  split <;> rfl

@[simp] theorem resend_seq (e : WindowEntry) : e.resend.seq = e.seq := by
  unfold WindowEntry.resend
  split <;> rfl

/-- R14: a SACKED entry is not in flight. -/
theorem inFlight_of_sack {e : WindowEntry} (h : e.sack.inFlight = true) : e.inFlight = true := by
  obtain ⟨q, c, n⟩ := e
  cases c <;> simp_all [WindowEntry.sack, WindowEntry.inFlight]

/-- R15, R18: a lost entry is not in flight. -/
@[simp] theorem lose_inFlight (e : WindowEntry) : e.lose.inFlight = false := by
  obtain ⟨q, c, n⟩ := e
  rcases c with _ | _ | _ | a
  case skipped => cases a <;> rfl
  all_goals rfl

/-- R20: a due entry sent again is in flight. -/
theorem resend_inFlight {e : WindowEntry} (h : e.due = true) : e.resend.inFlight = true := by
  obtain ⟨q, c, n⟩ := e
  rcases c with _ | _ | _ | a
  case skipped => cases a <;> simp_all [WindowEntry.due, WindowEntry.resend, WindowEntry.inFlight]
  all_goals simp_all [WindowEntry.due, WindowEntry.resend, WindowEntry.inFlight]

/-! ## The reorder set (R27) -/

theorem seqDistance_injective {e a b : Seq} (h : seqDistance e a = seqDistance e b) : a = b := by
  have := BitVec.eq_of_toNat_eq h
  exact add_right_cancel (b := -e) (by simpa [sub_eq_add_neg] using this)

theorem seqDistance_succ {e q : Seq} (h : 1 ≤ seqDistance e q) :
    seqDistance (e + 1) q + 1 = seqDistance e q := by
  simp only [seqDistance, BitVec.toNat_sub, BitVec.toNat_add] at *
  have := e.isLt
  have := q.isLt
  simp at *
  omega

theorem seqDistance_self (e : Seq) : seqDistance e e = 0 := by simp [seqDistance]

theorem eq_of_seqDistance_zero {e q : Seq} (h : seqDistance e q = 0) : q = e :=
  seqDistance_injective (h.trans (seqDistance_self e).symm)

/-- R27: members at rising distances from a sequence, between a least and a bound. -/
def RisingFrom (e : Seq) (least w : Nat) (l : List Member) : Prop :=
  (l.map fun m => seqDistance e m.seq).Pairwise (· < ·) ∧
    ∀ m ∈ l, least ≤ seqDistance e m.seq ∧ seqDistance e m.seq < w

theorem Flow.reorderWhole_iff (fl : Flow) (w : Nat) :
    fl.reorderWhole w ↔ RisingFrom fl.expected 1 w fl.reorder := Iff.rfl

theorem RisingFrom.tail {e : Seq} {least w : Nat} {m : Member} {l : List Member}
    (h : RisingFrom e least w (m :: l)) : RisingFrom e (seqDistance e m.seq + 1) w l := by
  obtain ⟨hp, hb⟩ := h
  rw [List.map_cons, List.pairwise_cons] at hp
  refine ⟨hp.2, fun x hx => ⟨hp.1 _ (List.mem_map_of_mem hx), (hb x (by simp [hx])).2⟩⟩

theorem RisingFrom.succ {e : Seq} {least w : Nat} {l : List Member} (h : RisingFrom e (least + 1) w l) :
    RisingFrom (e + 1) least w l := by
  obtain ⟨hp, hb⟩ := h
  have hd : ∀ m ∈ l, seqDistance (e + 1) m.seq + 1 = seqDistance e m.seq := fun m hm =>
    seqDistance_succ (by have := (hb m hm).1; omega)
  refine ⟨?_, fun m hm => ?_⟩
  · rw [List.pairwise_map] at *
    refine hp.imp_of_mem fun {a b} ha hb' hab => ?_
    have := hd a ha
    have := hd b hb'
    omega
  · have := hd m hm
    have := hb m hm
    omega

/-- R30: a run leaves no member at E. -/
theorem inOrderRun_rising {e : Seq} {w : Nat} {l : List Member} (h : RisingFrom e 0 w l) :
    RisingFrom (inOrderRun e l).expected 1 w (inOrderRun e l).reorder := by
  induction l generalizing e with
  | nil => simp [inOrderRun, RisingFrom]
  | cons m rest ih =>
    unfold inOrderRun
    split
    · next hm =>
      have ht := h.tail
      rw [hm, seqDistance_self] at ht
      exact ih ht.succ
    · next hm =>
      have hpos : 1 ≤ seqDistance e m.seq :=
        Nat.one_le_iff_ne_zero.2 fun h0 => hm (eq_of_seqDistance_zero h0)
      refine ⟨h.1, fun x hx => ⟨?_, (h.2 x hx).2⟩⟩
      rcases List.mem_cons.1 hx with rfl | hx
      · exact hpos
      · exact hpos.trans (Nat.le_of_succ_le (h.tail.2 x hx).1)

/-- R27, R38: E advances by one, and the run follows. -/
theorem Flow.afterRun_reorderWhole {fl : Flow} {w : Nat} (h : fl.reorderWhole w) :
    (fl.afterRun fl.advance).reorderWhole w :=
  inOrderRun_rising (RisingFrom.succ (fl.reorderWhole_iff w |>.1 h))

theorem mem_insertMember {e : Seq} {m x : Member} {l : List Member} :
    x ∈ insertMember e m l ↔ x = m ∨ x ∈ l := by
  induction l with
  | nil => simp [insertMember]
  | cons y rest ih =>
    unfold insertMember
    split
    · simp
    · simp only [List.mem_cons, ih]; tauto

/-- R27: a new member joins the set at its place. -/
theorem insertMember_rising {e : Seq} {w : Nat} {m : Member} {l : List Member} (h : RisingFrom e 1 w l)
    (hm : 1 ≤ seqDistance e m.seq ∧ seqDistance e m.seq < w) (hn : ∀ x ∈ l, x.seq ≠ m.seq) :
    RisingFrom e 1 w (insertMember e m l) := by
  refine ⟨?_, fun x hx => ?_⟩
  · obtain ⟨hp, -⟩ := h
    rw [List.pairwise_map] at *
    induction l with
    | nil => simp [insertMember]
    | cons y rest ih =>
      rw [List.pairwise_cons] at hp
      have hy : seqDistance e y.seq ≠ seqDistance e m.seq := fun h' => hn y (by simp) (seqDistance_injective h')
      unfold insertMember
      split
      · next hlt =>
        refine List.pairwise_cons.2 ⟨fun x hx => ?_, List.pairwise_cons.2 hp⟩
        rcases List.mem_cons.1 hx with rfl | hx
        · exact hlt
        · exact hlt.trans (hp.1 x hx)
      · next hlt =>
        refine List.pairwise_cons.2 ⟨fun x hx => ?_, ih (fun x hx => hn x (by simp [hx])) hp.2⟩
        rcases mem_insertMember.1 hx with rfl | hx
        · omega
        · exact hp.1 x hx
  · rcases mem_insertMember.1 hx with rfl | hx
    · exact hm
    · exact h.2 x hx

end Sys2Proof.Machine

namespace Sys2Proof.Machine

/-! ## The sender half keeps the laws (section 1) -/

theorem modifyEntry_seqs {g : WindowEntry → WindowEntry} (hg : ∀ e, (g e).seq = e.seq) (fl : Flow) (q : Seq) :
    (fl.modifyEntry q g).window.map (·.seq) = fl.window.map (·.seq) :=
  map_seq_of_keeps (fun e => by split <;> simp [hg]) fl.window

@[simp] theorem startIfStopped_isRunning (t : Timer) (d : Nat) : (t.startIfStopped d).isRunning = true := by
  cases t <;> rfl

theorem Flow.restartRetx_isRunning (fl : Flow) : fl.restartRetx.retxTimer.isRunning = fl.anyInFlight := by
  unfold Flow.restartRetx
  cases h : fl.anyInFlight <;> rfl

/-- R9: new data taken with room in the window. -/
theorem Flow.TrafficWhole.takeNew {fl : Flow} {w : Nat} (h : fl.TrafficWhole w) (hc : fl.state ≠ .closing)
    (hroom : fl.window.length < w) (frame : Frame) (rest : List Frame) :
    (fl.takeNew frame rest).TrafficWhole w := by
  obtain ⟨hs, hn, -⟩ := h.window
  have hseqs : (fl.takeNew frame rest).window.map (·.seq) = fl.window.map (·.seq) ++ [fl.next] := by
    simp [Flow.takeNew, Flow.startRetx]
  have hlen : (fl.takeNew frame rest).window.length = fl.window.length + 1 := by
    simp [Flow.takeNew, Flow.startRetx]
  exact { h with
    window := by
      refine ⟨?_, ?_, by omega⟩
      · rw [hseqs, hlen, List.range_succ, List.map_append, hs, hn]; rfl
      · rw [hlen, BitVec.ofNat_add, ← BitVec.add_assoc]
        exact congrArg (· + 1) hn
    order := by
      unfold Flow.orderWhole
      rw [hseqs]
      exact h.order.append_right _
    acknowledged := fun h' => absurd h' hc
    timer := fun _ => by simp [Flow.takeNew, Flow.startRetx, Flow.anyInFlight, WindowEntry.inFlight] }

/-- R20, R22: an entry sent again, or its ADVANCE, after a change that leaves it in flight. -/
theorem Flow.TrafficWhole.sentAgain {fl : Flow} {w : Nat} (h : fl.TrafficWhole w) (hw : w ≤ 64)
    (hc : fl.state ≠ .closing) {g : WindowEntry → WindowEntry} (hg : ∀ e, (g e).seq = e.seq) {e : WindowEntry}
    (he : e ∈ fl.window) (hf : (g e).inFlight = true) :
    (((fl.modifyEntry e.seq g).moveToEnd e.seq).startRetx).TrafficWhole w := by
  have hseqs := modifyEntry_seqs hg fl e.seq
  have hnodup : fl.txOrder.Nodup := h.order.nodup_iff.2 (h.window.nodup hw)
  have hmem : e.seq ∈ fl.txOrder := h.order.mem_iff.2 (List.mem_map_of_mem he)
  exact { h with
    window := h.window.congr hseqs rfl rfl
    order := h.order.congr hseqs (perm_moveToEnd hnodup hmem)
    acknowledged := fun h' => absurd h' hc
    timer := fun _ => by
      have : ((fl.modifyEntry e.seq g).moveToEnd e.seq).startRetx.anyInFlight = true :=
        List.any_eq_true.2 ⟨g e, List.mem_map.2 ⟨e, he, if_pos rfl⟩, hf⟩
      rw [this]
      exact startIfStopped_isRunning _ _ }

theorem Flow.loseOldest_eq (fl : Flow) :
    ∃ win, fl.loseOldest = { fl with window := win } ∧ win.map (·.seq) = fl.window.map (·.seq) := by
  unfold Flow.loseOldest
  split
  · next q _ => exact ⟨_, rfl, modifyEntry_seqs lose_seq fl q⟩
  · exact ⟨fl.window, rfl, rfl⟩

/-- R18: the retransmission timer's running out. -/
theorem Flow.TrafficWhole.retxExpired {fl : Flow} {w : Nat} (h : fl.TrafficWhole w) (hc : fl.state ≠ .closing)
    (p : Profile) : (fl.retxExpired p).TrafficWhole w := by
  obtain ⟨win, e, hseqs⟩ := fl.loseOldest_eq
  unfold Flow.retxExpired
  rw [e]
  exact { h with
    window := h.window.congr hseqs rfl rfl
    order := h.order.congr hseqs (List.Perm.refl _)
    acknowledged := fun h' => absurd h' hc
    timer := fun _ => Flow.restartRetx_isRunning _ }

/-! ## A STATUS taken (R11 to R16) -/

/-- R12: the entries that a cumulative acknowledgement leaves in the window. -/
def Flow.keptAfter (fl : Flow) (a : Seq) : List WindowEntry := fl.window.filter fun e => !seqBefore e.seq a

/-- R15: whether an entry of the window is marked lost if it is in flight: it is before H and stands before H's
entry in the list. -/
def lostBelow (kept : List WindowEntry) (order : List Seq) (high : Option Seq) (q : Seq) : Bool :=
  high.any fun h => kept.any (·.seq = h) && seqBefore q h && (order.takeWhile (· ≠ h)).contains q

/-- Table 1.3: an entry after the marks of R14 and R15. -/
def WindowEntry.marked (e : WindowEntry) (set lost : Bool) : WindowEntry :=
  let e' := if set then e.sack else e
  if lost then e'.lose else e'

/-- R12, R14, R15: the window that a STATUS leaves. -/
def Flow.windowAfter (fl : Flow) (a : Seq) (map : BitVec 64) (high : Option Seq) : List WindowEntry :=
  (fl.keptAfter a).map fun e => e.marked (mapSet a map e.seq)
    (lostBelow (fl.keptAfter a) (fl.txOrder.filter fun q => !seqBefore q a) high e.seq)

@[simp] theorem marked_seq (e : WindowEntry) (set lost : Bool) : (e.marked set lost).seq = e.seq := by
  cases set <;> cases lost <;> simp [WindowEntry.marked]

/-- R14, R15: no mark puts an entry in flight. -/
theorem inFlight_of_marked {e : WindowEntry} {set lost : Bool} (h : (e.marked set lost).inFlight = true) :
    e.inFlight = true := by
  cases lost with
  | true => simp [WindowEntry.marked] at h
  | false =>
    cases set with
    | true => exact inFlight_of_sack h
    | false => exact h

theorem lose_of_not_inFlight {e : WindowEntry} (h : e.inFlight = false) : e.lose = e := by
  obtain ⟨q, c, n⟩ := e
  rcases c with _ | _ | _ | a
  case skipped => cases a <;> simp_all [WindowEntry.lose, WindowEntry.inFlight]
  all_goals simp_all [WindowEntry.lose, WindowEntry.inFlight]

theorem Flow.windowAfter_seqs (fl : Flow) (a : Seq) (map : BitVec 64) (high : Option Seq) :
    (fl.windowAfter a map high).map (·.seq) = (fl.keptAfter a).map (·.seq) := by
  simp [Flow.windowAfter, Function.comp_def]

theorem Flow.inFlight_of_windowAfter {fl : Flow} {a : Seq} {map : BitVec 64} {high : Option Seq}
    (h : (fl.windowAfter a map high).any (·.inFlight) = true) : (fl.keptAfter a).any (·.inFlight) = true := by
  obtain ⟨x, hx, hf⟩ := List.any_eq_true.1 h
  obtain ⟨e, he, rfl⟩ := List.mem_map.1 hx
  exact List.any_eq_true.2 ⟨e, he, inFlight_of_marked hf⟩

/-- R14, R15: both marks as one change of the window. -/
theorem Flow.marks_eq (fl : Flow) (a : Seq) (map : BitVec 64) (high : Option Seq) :
    (fl.markSelective a map).markBelowHigh high = { fl with
      window := fl.window.map fun e =>
        e.marked (mapSet a map e.seq) (lostBelow fl.window fl.txOrder high e.seq) } := by
  cases high with
  | none => rfl
  | some h =>
    have hany : (fl.markSelective a map).window.any (·.seq == h) = fl.window.any (·.seq = h) := by
      simp only [Flow.markSelective, List.any_map, Function.comp_def]
      congr 1
      funext e
      split <;> simp [beq_eq_decide]
    simp only [Flow.markBelowHigh, hany]
    cases hh : fl.window.any (·.seq = h) with
    | false => simp [Flow.markSelective, lostBelow, hh, WindowEntry.marked]
    | true =>
      simp only [if_true, Flow.markSelective, List.map_map, lostBelow, Option.any_some, hh, Bool.true_and]
      congr 1
      apply List.map_congr_left
      intro e _
      simp only [Function.comp_apply, WindowEntry.marked, Flow.sentBefore]
      have hseq : (if mapSet a map e.seq = true then e.sack else e).seq = e.seq := by split <;> simp
      cases hf : (if mapSet a map e.seq = true then e.sack else e).inFlight with
      | false => simp [lose_of_not_inFlight hf]
      | true => simp only [hseq, Bool.true_and]

/-- R13: the timer after the release of R12, by whether L moved and an entry is still in flight. -/
theorem Flow.resetAfterAdvance_eq (fl : Flow) (old : Seq) (base : Nat) :
    fl.resetAfterAdvance old base = { fl with
      rto := if fl.lower = old then fl.rto else base
      retxTimer := if fl.lower = old then fl.retxTimer
        else if fl.anyInFlight then .running base else .stopped } := by
  unfold Flow.resetAfterAdvance
  split <;> rfl

theorem Flow.stopIfIdle_eq {fl : Flow} (hc : fl.state ≠ .closing) :
    fl.stopIfIdle = { fl with retxTimer := if fl.anyInFlight then fl.retxTimer else .stopped } := by
  unfold Flow.stopIfIdle
  cases h : fl.anyInFlight <;> simp [hc]

/-- R11 to R16: what a STATUS that is not stale leaves of a flow that is not CLOSING. -/
theorem Flow.takeStatus_eq {fl : Flow} (hc : fl.state ≠ .closing) (base : Nat) (a : Seq) (map : BitVec 64)
    (high : Option Seq) :
    fl.takeStatus base a map high = { fl with
      lower := a
      window := fl.windowAfter a map high
      txOrder := fl.txOrder.filter fun q => !seqBefore q a
      rto := if a = fl.lower then fl.rto else base
      retxTimer := if (fl.windowAfter a map high).any (·.inFlight) then
          if a = fl.lower then fl.retxTimer else .running base
        else .stopped } := by
  unfold Flow.takeStatus
  rw [Flow.resetAfterAdvance_eq, Flow.marks_eq, Flow.stopIfIdle_eq (by exact hc)]
  have hin : (fl.windowAfter a map high).any (·.inFlight) = true → (fl.release a).anyInFlight = true :=
    Flow.inFlight_of_windowAfter
  refine congrArg (fun t => ({ fl with
    lower := a
    window := fl.windowAfter a map high
    txOrder := fl.txOrder.filter fun q => !seqBefore q a
    rto := if a = fl.lower then fl.rto else base
    retxTimer := t } : Flow)) ?_
  change (if (fl.windowAfter a map high).any (·.inFlight) = true then _ else _) = _
  split
  · next hany => simp only [hin hany, if_true]; rfl
  · rfl

/-- R12: in CLOSING, with nothing left to acknowledge, a STATUS for L changes nothing. -/
theorem Flow.takeStatus_of_acknowledged {fl : Flow} (hc : fl.state = .closing) (hw : fl.window = [])
    (ho : fl.txOrder = []) (base : Nat) (map : BitVec 64) (high : Option Seq) :
    fl.takeStatus base fl.lower map high = fl := by
  have hr : fl.release fl.lower = fl := by
    unfold Flow.release
    rw [hw, ho, List.filter_nil, List.filter_nil, ← hw, ← ho]
  unfold Flow.takeStatus
  rw [hr, Flow.resetAfterAdvance_eq, Flow.marks_eq]
  simp only [Flow.stopIfIdle, hc, true_or, if_true, hw, List.map_nil]
  rw [← hw, ← hc]

/-! ### The release of R12 -/

theorem seqDistance_add (a : Seq) (k : Nat) : seqDistance a (a + BitVec.ofNat 12 k) = k % 4096 := by
  simp [seqDistance]

theorem seqBefore_window {lower : Seq} {k d : Nat} (hk : k ≤ 64) (hd : d ≤ 64) :
    seqBefore (lower + BitVec.ofNat 12 k) (lower + BitVec.ofNat 12 d) = decide (k < d) := by
  have h : seqDistance (lower + BitVec.ofNat 12 k) (lower + BitVec.ofNat 12 d) = (d + (4096 - k)) % 4096 := by
    have := lower.isLt
    simp only [seqDistance, BitVec.toNat_sub, BitVec.toNat_add, BitVec.toNat_ofNat]
    omega
  rw [Bool.eq_iff_iff]
  simp only [seqBefore, h, Bool.and_eq_true, decide_eq_true_iff]
  omega

/-- R4, R11: the distance from L to A counts the entries that an A in the window acknowledges. -/
theorem Flow.windowWhole.split {fl : Flow} {w : Nat} (h : fl.windowWhole w) (hw : w ≤ 64) {a : Seq}
    (hs : fl.statusStale a = false) :
    ∃ d, d ≤ fl.window.length ∧ a = fl.lower + BitVec.ofNat 12 d ∧
      fl.keptAfter a = fl.window.drop d := by
  obtain ⟨hseq, hnext, hlen⟩ := h
  have hd : seqDistance fl.lower a ≤ fl.window.length := by
    have : seqDistance fl.lower fl.next = fl.window.length := by
      rw [hnext, seqDistance_add]; omega
    simpa [Flow.statusStale, this] using hs
  have ha : a = fl.lower + BitVec.ofNat 12 (seqDistance fl.lower a) := by
    rw [seqDistance, BitVec.ofNat_toNat, BitVec.setWidth_eq, add_sub_cancel]
  refine ⟨_, hd, ha, ?_⟩
  generalize seqDistance fl.lower a = d at *
  have hget : ∀ k (hk : k < fl.window.length), fl.window[k].seq = fl.lower + BitVec.ofNat 12 k := fun k hk => by
    have := congrArg (·[k]?) hseq
    simpa [hk] using this
  have hbefore : ∀ k (hk : k < fl.window.length), seqBefore fl.window[k].seq a = decide (k < d) := fun k hk => by
    rw [hget k hk, ha]
    exact seqBefore_window (by omega) (by omega)
  unfold Flow.keptAfter
  conv_lhs => rw [← List.take_append_drop d fl.window]
  rw [List.filter_append, List.filter_eq_nil_iff.2, List.filter_eq_self.2, List.nil_append]
  · intro e he
    obtain ⟨k, hk, rfl⟩ := List.mem_iff_getElem.1 he
    rw [List.length_drop] at hk
    rw [List.getElem_drop, hbefore _ (by omega)]
    simp
  · intro e he
    obtain ⟨k, hk, rfl⟩ := List.mem_iff_getElem.1 he
    rw [List.length_take] at hk
    rw [List.getElem_take, hbefore _ (by omega)]
    simp; omega

/-- R12: what the release leaves is a window from A. -/
theorem Flow.windowWhole.release {fl : Flow} {w : Nat} (h : fl.windowWhole w) (hw : w ≤ 64) {a : Seq}
    (hs : fl.statusStale a = false) {fl' : Flow}
    (hseqs : fl'.window.map (·.seq) = (fl.keptAfter a).map (·.seq)) (hl : fl'.lower = a)
    (hn : fl'.next = fl.next) : fl'.windowWhole w := by
  obtain ⟨d, hd, ha, hk⟩ := h.split hw hs
  obtain ⟨hseq, hnext, hlen⟩ := h
  have hlen' : fl'.window.length = fl.window.length - d := by
    simpa [hk] using congrArg List.length hseqs
  refine ⟨?_, ?_, by omega⟩
  · rw [hseqs, hk, List.map_drop, hseq, hlen', hl, ha]
    apply List.ext_getElem (by simp)
    intro i h1 h2
    simp [BitVec.ofNat_add, BitVec.add_assoc]
  · rw [hn, hnext, hl, ha, hlen', BitVec.add_assoc, ← BitVec.ofNat_add]
    congr 2
    omega

/-- R6, R12: the release takes the same sequences from the window and from the list. -/
theorem Flow.orderWhole.release {fl : Flow} (h : fl.orderWhole) {a : Seq} {fl' : Flow}
    (hseqs : fl'.window.map (·.seq) = (fl.keptAfter a).map (·.seq))
    (ht : fl'.txOrder = fl.txOrder.filter fun q => !seqBefore q a) : fl'.orderWhole := by
  unfold Flow.orderWhole at *
  rw [hseqs, ht]
  have := h.filter fun q => !seqBefore q a
  rwa [List.filter_map] at this

/-- R11 to R16: a STATUS that is not stale keeps the laws. -/
theorem Flow.TrafficWhole.takeStatus {fl : Flow} {w : Nat} (h : fl.TrafficWhole w) (hw : w ≤ 64) {a : Seq}
    (hs : fl.statusStale a = false) (base : Nat) (map : BitVec 64) (high : Option Seq) :
    (fl.takeStatus base a map high).TrafficWhole w := by
  by_cases hc : fl.state = .closing
  · obtain ⟨-, hwin⟩ := h.acknowledged hc
    have hord : fl.txOrder = [] := by simpa [Flow.orderWhole, hwin] using h.order
    obtain ⟨d, hd, ha, -⟩ := h.window.split hw hs
    have hd0 : d = 0 := by simpa [hwin] using hd
    have hal : a = fl.lower := by simpa [hd0] using ha
    rwa [hal, Flow.takeStatus_of_acknowledged hc hwin hord]
  · rw [Flow.takeStatus_eq hc]
    have hseqs := fl.windowAfter_seqs a map high
    exact { h with
      window := h.window.release hw hs hseqs rfl rfl
      order := h.order.release hseqs rfl
      acknowledged := fun h' => absurd h' hc
      timer := fun _ => by
        simp only [Flow.anyInFlight]
        cases hany : (fl.windowAfter a map high).any (·.inFlight) with
        | false => rfl
        | true =>
          have hbefore : fl.anyInFlight = true := by
            obtain ⟨e, he, hf⟩ := List.any_eq_true.1 (Flow.inFlight_of_windowAfter hany)
            exact List.any_eq_true.2 ⟨e, List.mem_of_mem_filter he, hf⟩
          have hrun := h.timer hc
          rw [hbefore] at hrun
          simp only [if_true]
          split
          · exact hrun
          · rfl }

end Sys2Proof.Machine

namespace Sys2Proof.Machine

/-! ## The receiver half keeps the laws (section 2) -/

/-- R40, R41. -/
theorem Flow.TrafficWhole.acceptData {fl : Flow} {w : Nat} (h : fl.TrafficWhole w) (p : Profile) :
    (fl.acceptData p).TrafficWhole w :=
  { h with
    since := by
      have := h.since
      simp only [Flow.acceptData]
      split <;> omega }

/-- R30. -/
theorem Flow.TrafficWhole.afterRun {fl : Flow} {w : Nat} (h : fl.TrafficWhole w) :
    (fl.afterRun fl.advance).TrafficWhole w :=
  { h with reorder := Flow.afterRun_reorderWhole h.reorder }

/-- R27: a member that the set does not hold joins it within the window. -/
theorem Flow.TrafficWhole.insertMember {fl : Flow} {w : Nat} (h : fl.TrafficWhole w) {m : Member}
    (hpos : seqDistance fl.expected m.seq ≠ 0) (hlt : seqDistance fl.expected m.seq < w)
    (hn : fl.hasMember m.seq = false) :
    ({ fl with reorder := insertMember fl.expected m fl.reorder } : Flow).TrafficWhole w :=
  { h with
    reorder := insertMember_rising h.reorder ⟨Nat.one_le_iff_ne_zero.2 hpos, hlt⟩
      (by simpa [Flow.hasMember] using hn) }

/-! ## The lifecycle keeps the laws (section 3) -/

/-- R51: the entry to CLOSED or FAILED, with no block kept or one that a flow at rest may owe. -/
theorem Flow.ended_atRest (fl : Flow) (new : FlowState) (failure : Option FailureCause) {keep : Bool}
    (hk : keep = true → ∀ b ∈ fl.pendingBlock, b.owedAtRest = true) : (fl.ended new failure keep).atRest := by
  refine ⟨rfl, rfl, rfl, rfl, rfl, rfl, rfl, rfl, rfl, rfl, rfl, rfl, rfl, fun b hb => ?_⟩
  cases keep with
  | true => exact hk rfl b hb
  | false => simp [Flow.ended] at hb

theorem Flow.ended_whole (fl : Flow) {new : FlowState} (hn : new = .closed ∨ new = .failed)
    (failure : Option FailureCause) {keep : Bool}
    (hk : keep = true → ∀ b ∈ fl.pendingBlock, b.owedAtRest = true) (w : Nat) :
    (fl.ended new failure keep).Whole w :=
  (Flow.whole_iff_atRest ((Flow.inUse_eq_false_iff _).2 hn)).2 (fl.ended_atRest new failure hk)

/-- 3.1: an OPEN_ACK, a CLOSE_ACK or an ABORT may be owed in every state, and so may no block. -/
theorem Flow.Whole.owing {fl : Flow} {w : Nat} (h : fl.Whole w) {p : Option LifecycleBlock}
    (hp : ∀ b ∈ p, b.owedAtRest = true) : ({ fl with pendingBlock := p } : Flow).Whole w :=
  { h with
    atRest := fun hn => by
      obtain ⟨h1, h2, h3, h4, h5, h6, h7, h8, h9, h10, h11, h12, h13, -⟩ := h.atRest hn
      exact ⟨h1, h2, h3, h4, h5, h6, h7, h8, h9, h10, h11, h12, h13, hp⟩
    owed := ⟨fun _ _ hb => by simpa [LifecycleBlock.owedAtRest] using hp _ hb,
      fun hb => by simpa [LifecycleBlock.owedAtRest] using hp _ hb⟩ }

/-- R50, R52, R53: an OPENING flow owes its OPEN. -/
theorem Flow.Whole.owingOpen {fl : Flow} {w : Nat} (h : fl.Whole w) (ho : fl.state = .opening)
    (window : Nat) (order : OrderMode) :
    ({ fl with pendingBlock := some (.openFlow window order) } : Flow).Whole w := by
  obtain ⟨hf, hd, -⟩ := (Flow.whole_iff_opening ho).1 h
  exact (Flow.whole_iff_opening (fl := { fl with pendingBlock := some (.openFlow window order) }) ho).2
    ⟨hf, hd, by simp⟩

/-- R59: a CLOSING flow owes its CLOSE. -/
theorem Flow.Whole.owingClose {fl : Flow} {w : Nat} (h : fl.Whole w) (hc : fl.state = .closing) :
    ({ fl with pendingBlock := some .close } : Flow).Whole w := by
  have ht : fl.takesBlocks = true := fl.takesBlocks_iff.2 (by simp [hc])
  have hw := (Flow.whole_iff_traffic ht).1 h
  exact (Flow.whole_iff_traffic (fl := { fl with pendingBlock := some .close }) ht).2
    { hw with owesNoOpen := by simp, owesClose := fun _ => hc }

/-- R58: a drain of origin LOCAL that is complete. -/
theorem Flow.Whole.drainedLocally {fl : Flow} {w : Nat} (h : fl.Whole w) (hd : fl.drained = true) :
    ({ fl with
      pendingBlock := some .close, attempts := 0, retxTimer := .stopped, drainOrigin := none
      state := .closing } : Flow).Whole w := by
  simp only [Flow.drained, Bool.and_eq_true, beq_iff_eq, List.isEmpty_iff] at hd
  obtain ⟨⟨⟨⟨hs, -⟩, hq⟩, hwin⟩, -⟩ := hd
  have hw := (Flow.whole_iff_traffic (fl.takesBlocks_iff.2 (by simp [hs]))).1 h
  refine (Flow.whole_iff_traffic ((Flow.takesBlocks_iff _).2 (by simp))).2 { hw with
    acknowledged := fun _ => ⟨hq, hwin⟩
    timer := fun hn => absurd rfl hn
    origin := rfl
    owesNoOpen := by simp
    owesClose := fun _ => rfl }

/-- R57, R60: an OPEN flow starts to drain. -/
theorem Flow.Whole.draining {fl : Flow} {w : Nat} (h : fl.Whole w) (ho : fl.state = .opened)
    (origin : DrainOrigin) (d : Option Deferred) :
    ({ fl with drainOrigin := some origin, deferred := d, state := .draining } : Flow).Whole w := by
  have hw := (Flow.whole_iff_traffic (fl.takesBlocks_iff.2 (by simp [ho]))).1 h
  refine (Flow.whole_iff_traffic ((Flow.takesBlocks_iff _).2 (by simp))).2 { hw with
    acknowledged := by simp
    timer := fun _ => hw.timer (by simp [ho])
    origin := rfl
    owesClose := fun hp => by simpa [ho] using hw.owesClose hp }

/-- R55, R56: an OPENING flow opens, owing no OPEN. -/
theorem Flow.Whole.opened {fl : Flow} {w : Nat} (h : fl.Whole w) (ho : fl.state = .opening)
    {p : Option LifecycleBlock} (hp : ∀ b ∈ p, b.owedAtRest = true) (d : Option Deferred) :
    ({ fl with state := .opened, openTimer := .stopped, pendingBlock := p, deferred := d } : Flow).Whole w := by
  obtain ⟨-, hd, -⟩ := (Flow.whole_iff_opening ho).1 h
  obtain ⟨-, hwin, -, -, -, -, -, htimer, -⟩ := h.fresh ho
  refine (Flow.whole_iff_traffic ((Flow.takesBlocks_iff _).2 (by simp))).2 {
    window := h.window (by simp [Flow.inUse, ho])
    order := h.order
    reorder := h.reorder
    since := h.since
    acknowledged := by simp
    timer := fun _ => by simp [Flow.anyInFlight, hwin, htimer, Timer.isRunning]
    origin := by simp [hd]
    owesNoOpen := fun _ _ hb => by simpa [LifecycleBlock.owedAtRest] using hp _ hb
    owesClose := fun hb => by simpa [LifecycleBlock.owedAtRest] using hp _ hb }

/-- R1, R26: a flow at rest that is reinitialised is at rest, and its context is fresh. -/
theorem Flow.reinitialised_atRest {fl : Flow} (h : fl.atRest) (base : Nat) :
    (fl.reinitialised base).atRest ∧ (fl.reinitialised base).fresh := by
  obtain ⟨-, -, -, -, hsus, -, -, hatt, -, -, hopen, hdrain, hdef, hpend⟩ := h
  exact ⟨⟨rfl, rfl, rfl, rfl, hsus, rfl, rfl, hatt, rfl, rfl, hopen, hdrain, hdef, hpend⟩,
    rfl, rfl, rfl, rfl, rfl, rfl, rfl, rfl, rfl, rfl, rfl, hsus⟩

/-- R54: a CLOSED flow opens at its partner's OPEN. -/
theorem Flow.opened_of_fresh {fl : Flow} (h : fl.fresh) (hd : fl.drainOrigin = none)
    {p : Option LifecycleBlock} (hp : ∀ b ∈ p, b.owedAtRest = true) (w : Nat) :
    ({ fl with state := .opened, pendingBlock := p } : Flow).Whole w := by
  obtain ⟨-, hwin, hord, hreo, hlow, hnext, -, htimer, -, -, hsince, -⟩ := h
  refine (Flow.whole_iff_traffic ((Flow.takesBlocks_iff _).2 (by simp))).2 {
    window := by simp [Flow.windowWhole, hwin, hlow, hnext]
    order := Flow.orderWhole_of_empty hwin hord
    reorder := Flow.reorderWhole_of_empty hreo w
    since := by simp [hsince]
    acknowledged := by simp
    timer := fun _ => by simp [Flow.anyInFlight, hwin, htimer, Timer.isRunning]
    origin := by simp [hd]
    owesNoOpen := fun _ _ hb => by simpa [LifecycleBlock.owedAtRest] using hp _ hb
    owesClose := fun hb => by simpa [LifecycleBlock.owedAtRest] using hp _ hb }

/-- R52: a CLOSED flow is OPENING, owing an OPEN. -/
theorem Flow.opening_of_fresh {fl : Flow} (h : fl.fresh) (hd : fl.drainOrigin = none) (window : Nat)
    (order : OrderMode) (attempts : Nat) (d : Option Deferred) (w : Nat) :
    ({ fl with
      pendingBlock := some (.openFlow window order), attempts := attempts, deferred := d
      state := .opening } : Flow).Whole w :=
  (Flow.whole_iff_opening rfl).2 ⟨h, hd, by simp⟩

/-- R67: a suspended flow is in use, and not OPENING. -/
theorem Flow.Whole.takesBlocks_of_suspended {fl : Flow} {w : Nat} (h : fl.Whole w)
    (hs : fl.suspended = true) : fl.takesBlocks = true := by
  cases hst : fl.state with
  | opened | draining | closing => simp [Flow.takesBlocks, hst]
  | opening =>
    obtain ⟨-, -, -, -, -, -, -, -, -, -, -, hsus⟩ := h.fresh hst
    simp [hs] at hsus
  | closed | failed =>
    obtain ⟨-, -, -, -, hsus, -⟩ := h.atRest (by simp [Flow.inUse, hst])
    simp [hs] at hsus

/-- R67. -/
theorem Flow.Whole.resumed {fl : Flow} {w : Nat} (h : fl.Whole w) (ht : fl.takesBlocks = true) (base : Nat) :
    (fl.resumed base).Whole w := by
  have hw := (Flow.whole_iff_traffic ht).1 h
  have hseqs := map_seq_of_keeps lose_seq fl.window
  exact (Flow.whole_iff_traffic (fl := fl.resumed base) ht).2 { hw with
    window := hw.window.congr hseqs rfl rfl
    order := hw.order.congr hseqs (List.Perm.refl _)
    acknowledged := fun hc => by
      obtain ⟨hq, hwin⟩ := hw.acknowledged hc
      exact ⟨hq, by simp [Flow.resumed, hwin]⟩
    timer := fun _ => by
      simp [Flow.resumed, Flow.anyInFlight, Timer.isRunning, List.any_map, Function.comp_def] }

/-- R66. -/
theorem Flow.Whole.suspended {fl : Flow} {w : Nat} (h : fl.Whole w) (ht : fl.takesBlocks = true) :
    ({ fl with suspended := true } : Flow).Whole w :=
  (Flow.whole_iff_traffic (fl := { fl with suspended := true }) ht).2
    { (Flow.whole_iff_traffic ht).1 h with }

@[simp] theorem tick_isRunning (t : Timer) : t.tick.isRunning = t.isRunning := by cases t <;> rfl

/-- Time passes at a flow's timers: a stopped one stays stopped and a running one runs. -/
theorem Flow.Whole.ticked {fl fl' : Flow} {w : Nat} (h : fl.Whole w)
    (he : fl' = { fl with openTimer := fl.openTimer.tick } ∨ fl' = { fl with
      openTimer := fl.openTimer.tick, retxTimer := fl.retxTimer.tick, ackTimer := fl.ackTimer.tick }) :
    fl'.Whole w := by
  have stopped : ∀ t : Timer, t = .stopped → t.tick = .stopped := by rintro _ rfl; rfl
  rcases he with rfl | rfl
  · exact { h with
      atRest := fun hn => by
        obtain ⟨h1, h2, h3, h4, h5, h6, h7, h8, h9, h10, h11, h12⟩ := h.atRest hn
        exact ⟨h1, h2, h3, h4, h5, h6, h7, h8, h9, h10, stopped _ h11, h12⟩ }
  · exact { h with
      atRest := fun hn => by
        obtain ⟨h1, h2, h3, h4, h5, h6, h7, h8, h9, h10, h11, h12⟩ := h.atRest hn
        exact ⟨h1, h2, h3, h4, h5, h6, h7, h8, stopped _ h9, stopped _ h10, stopped _ h11, h12⟩
      fresh := fun ho => by
        obtain ⟨h1, h2, h3, h4, h5, h6, h7, h8, h9, h10⟩ := h.fresh ho
        exact ⟨h1, h2, h3, h4, h5, h6, h7, stopped _ h8, stopped _ h9, h10⟩
      timer := fun ho => (tick_isRunning _).trans (h.timer ho) }

theorem Flow.Whole.tick {fl : Flow} {w : Nat} (h : fl.Whole w) : fl.tick.Whole w := by
  unfold Flow.tick
  split
  · exact h.ticked (.inl rfl)
  · exact h.ticked (.inr rfl)

theorem Flow.initial_whole (rto w : Nat) : (Flow.initial rto).Whole w :=
  (Flow.whole_iff_atRest rfl).2
    ⟨rfl, rfl, rfl, rfl, rfl, rfl, rfl, rfl, rfl, rfl, rfl, rfl, rfl, by simp [Flow.initial]⟩

end Sys2Proof.Machine

namespace Sys2Proof.Machine

/-! ## The contexts and the tables after a shared operation -/

@[simp] theorem complete_kept (s : State) (d : Option Deferred)
    (o : DeferredCode → Completion × Option Detail) :
    (s.complete d o).flows = s.flows ∧ (s.complete d o).tables = s.tables := by
  obtain ⟨n, e⟩ := complete_eq s d o
  rw [e]
  exact ⟨rfl, rfl⟩

@[simp] theorem releaseFlow_kept (s : State) (f : FlowId) (k : Nat) :
    (s.releaseFlow f k).flows = s.flows ∧ (s.releaseFlow f k).tables = s.tables := by
  obtain ⟨a, n, e⟩ := releaseFlow_eq s f k
  rw [e]
  exact ⟨rfl, rfl⟩

@[simp] theorem releaseBulk_kept (s : State) :
    s.releaseBulk.flows = s.flows ∧ s.releaseBulk.tables = s.tables := by
  obtain ⟨a, n, e⟩ := releaseBulk_eq s
  rw [e]
  exact ⟨rfl, rfl⟩

@[simp] theorem releaseAccount_kept (s : State) (a : Account) :
    (s.releaseAccount a).flows = s.flows ∧ (s.releaseAccount a).tables = s.tables := by
  cases a
  · exact releaseFlow_kept s _ 1
  · exact releaseBulk_kept s

theorem grantFlow_kept {s t : State} {f : FlowId} (h : s.grantFlow f = some t) :
    t.flows = s.flows ∧ t.tables = s.tables := by
  obtain ⟨-, a, n, rfl⟩ := grantFlow_some h
  exact ⟨rfl, rfl⟩

theorem grantBulk_kept {s t : State} (h : s.grantBulk = some t) :
    t.flows = s.flows ∧ t.tables = s.tables := by
  obtain ⟨-, a, n, rfl⟩ := grantBulk_some h
  exact ⟨rfl, rfl⟩

theorem reserveFlow_kept {s t : State} {f : FlowId} (h : s.reserveFlow f = some t) :
    t.flows = s.flows ∧ t.tables = s.tables := by
  obtain ⟨-, a, n, rfl⟩ := reserveFlow_some h
  exact ⟨rfl, rfl⟩

@[simp] theorem makePending_kept (s : State) (f : FlowId) (b : LifecycleBlock) :
    (s.makePending f b).flows = writeAt s.flows f { s.flow f with pendingBlock := some b } ∧
      (s.makePending f b).tables = s.tables := ⟨rfl, rfl⟩

@[simp] theorem clearPending_kept (s : State) (f : FlowId) :
    (s.clearPending f).flows = writeAt s.flows f { s.flow f with pendingBlock := none } ∧
      (s.clearPending f).tables = s.tables := ⟨rfl, rfl⟩

@[simp] theorem changeFlowState_kept (s : State) (f : FlowId) (new : FlowState) (cause : FlowCause) :
    (s.changeFlowState f new cause).flows = writeAt s.flows f { s.flow f with state := new } ∧
      (s.changeFlowState f new cause).tables = s.tables := ⟨rfl, rfl⟩

@[simp] theorem completeDeferred_kept (s : State) (f : FlowId) (o : Completion) :
    (s.completeDeferred f o).flows = writeAt s.flows f { s.flow f with deferred := none } ∧
      (s.completeDeferred f o).tables = s.tables := by
  simp [State.completeDeferred]

@[simp] theorem endFlow_kept (s : State) (f : FlowId) (new : FlowState) (cause : FlowCause)
    (failure : Option FailureCause) (keep : Bool) (o : DeferredCode → Completion × Option Detail) :
    (s.endFlow f new cause failure keep o).flows =
        writeAt s.flows f ((s.flow f).ended new failure keep) ∧
      (s.endFlow f new cause failure keep o).tables = s.tables := by
  obtain ⟨a, n, e⟩ := endFlow_eq s f new cause failure keep o
  rw [e]
  exact ⟨rfl, rfl⟩

@[simp] theorem placeClass_kept (s : State) (cls : PortClass) (item : WireItem) :
    (s.placeClass cls item).flows = s.flows ∧ (s.placeClass cls item).tables = s.tables := ⟨rfl, rfl⟩

@[simp] theorem deliver_kept (s : State) (f : FlowId) (frame : Frame) :
    (s.deliver f frame).flows = s.flows ∧ (s.deliver f frame).tables = s.tables := ⟨rfl, rfl⟩

@[simp] theorem deliverAll_kept (s : State) (f : FlowId) (frames : List Frame) :
    (s.deliverAll f frames).flows = s.flows ∧ (s.deliverAll f frames).tables = s.tables := by
  rw [deliverAll_eq]
  exact ⟨rfl, rfl⟩

@[simp] theorem placeReply_kept (s : State) (origin : Origin) (item : ReplyItem) :
    (s.placeReply origin item).flows = s.flows ∧ (s.placeReply origin item).tables = s.tables := by
  obtain ⟨w, r, e, -⟩ := placeReply_eq s origin item
  rw [e]
  exact ⟨rfl, rfl⟩

@[simp] theorem finish_kept (s : State) : s.finish.flows = s.flows ∧ s.finish.tables = s.tables := by
  obtain ⟨ns, w, r, g, e⟩ := finish_eq s
  rw [e]
  exact ⟨rfl, rfl⟩

@[simp] theorem present_kept (s : State) (b : LinkBlock) (owner : LinkOwner) :
    (s.present b owner).flows = s.flows ∧ (s.present b owner).tables = s.tables := by
  rw [present_eq]
  exact ⟨rfl, rfl⟩

@[simp] theorem changeLinkState_kept (s : State) (new : LinkState) (cause : LinkCause) :
    (s.changeLinkState new cause).flows = s.flows ∧ (s.changeLinkState new cause).tables = s.tables :=
  ⟨rfl, rfl⟩

@[simp] theorem restartSilence_kept (s : State) :
    s.restartSilence.flows = s.flows ∧ s.restartSilence.tables = s.tables := ⟨rfl, rfl⟩

@[simp] theorem completeJoin_kept (s : State) (o : Completion) :
    (s.completeJoin o).flows = s.flows ∧ (s.completeJoin o).tables = s.tables := by
  obtain ⟨n, e⟩ := completeJoin_eq s o
  rw [e]
  exact ⟨rfl, rfl⟩

@[simp] theorem drawEpoch_kept (s : State) :
    s.drawEpoch.flows = s.flows ∧ s.drawEpoch.tables = s.tables := ⟨rfl, rfl⟩

@[simp] theorem dropFlowBlock_kept (s : State) :
    s.dropFlowBlock.flows = s.flows ∧ s.dropFlowBlock.tables = s.tables := ⟨rfl, rfl⟩

@[simp] theorem countStale_kept (s : State) :
    s.countStale.flows = s.flows ∧ s.countStale.tables = s.tables := ⟨rfl, rfl⟩

@[simp] theorem countForeign_kept (s : State) :
    s.countForeign.flows = s.flows ∧ s.countForeign.tables = s.tables := ⟨rfl, rfl⟩

@[simp] theorem countIgnored_kept (s : State) :
    s.countIgnored.flows = s.flows ∧ s.countIgnored.tables = s.tables := ⟨rfl, rfl⟩

@[simp] theorem countBulkDropped_kept (s : State) :
    s.countBulkDropped.flows = s.flows ∧ s.countBulkDropped.tables = s.tables := ⟨rfl, rfl⟩

@[simp] theorem answerAtIntake_kept (s : State) (origin : Origin) (frame : Frame) :
    (s.answerAtIntake origin frame).flows = s.flows ∧ (s.answerAtIntake origin frame).tables = s.tables := by
  unfold State.answerAtIntake
  split <;> simp

@[simp] theorem admitRequest_kept (s : State) (r : Request) :
    (s.admitRequest r).flows = s.flows ∧ (s.admitRequest r).tables = s.tables := by
  unfold State.admitRequest State.enqueue
  split
  · simp
  · split
    · simp
    · split
      · simp
      · split <;> simp

/-- R149 to R151: intake changes no flow and no table. -/
@[simp] theorem intake_kept (s : State) (origin : Origin) (v : FrameView) :
    (s.intake origin v).flows = s.flows ∧ (s.intake origin v).tables = s.tables := by
  unfold State.intake
  split
  · simp
  · split <;> simp

@[simp] theorem bulkPath_kept (s : State) (cls : PortClass) (frame : Frame) :
    (s.bulkPath cls frame).flows = s.flows ∧ (s.bulkPath cls frame).tables = s.tables := by
  unfold State.bulkPath
  split
  · split
    · next t ht => simpa using grantBulk_kept ht
    · simp
  · simp

@[simp] theorem plainAction_kept (s : State) (action : PlainAction) (frame : Frame) :
    (s.plainAction action frame).flows = s.flows ∧ (s.plainAction action frame).tables = s.tables := by
  cases action
  · exact ⟨rfl, rfl⟩
  · exact bulkPath_kept s _ frame

@[simp] theorem bulkAtPath_kept (s : State) (cls : PortClass) (frame : Frame) :
    (s.bulkAtPath cls frame).flows = s.flows ∧ (s.bulkAtPath cls frame).tables = s.tables := by
  unfold State.bulkAtPath
  simp only
  split
  · simp
  · split
    · next t ht => simpa using grantBulk_kept ht
    · simp

/-! ## The window laws through one operation -/

/-- The laws read the flows and the tables only. -/
theorem State.WindowLaws.congr {s t : State} (h : s.WindowLaws)
    (ht : t.flows = s.flows ∧ t.tables = s.tables) : t.WindowLaws where
  flows f := by simpa only [State.flow, State.profile, ht] using h.flows f
  profiles bank f := by simpa only [ht] using h.profiles bank f

/-- A change of one flow's context that keeps that flow whole. -/
theorem State.WindowLaws.set {s t : State} (h : s.WindowLaws) {f : FlowId} {fl : Flow}
    (ht : t.flows = writeAt s.flows f fl ∧ t.tables = s.tables) (hw : fl.Whole (s.profile f).window) :
    t.WindowLaws where
  flows k := by
    have hp : (t.profile k).window = (s.profile k).window := by simp only [State.profile, ht]
    rw [State.flow, ht.1, readAt_writeAt, hp]
    split
    · next hk => exact hk ▸ hw
    · exact h.flows k
  profiles bank k := by simpa only [ht] using h.profiles bank k

/-- A change of every flow's context that keeps each whole. -/
theorem State.WindowLaws.each {s t : State} (h : s.WindowLaws) (ht : t.tables = s.tables)
    (hw : ∀ f, (t.flow f).Whole (s.profile f).window) : t.WindowLaws where
  flows f := by simpa only [State.profile, ht] using hw f
  profiles bank f := by simpa only [ht] using h.profiles bank f

/-- Table 7.2: a window is at most 64. -/
theorem State.WindowLaws.window_le {s : State} (h : s.WindowLaws) (f : FlowId) :
    (s.profile f).window ≤ 64 := by
  have := h.profiles s.tables.active f
  simp only [Profile.inRange, Bool.and_eq_true, decide_eq_true_iff] at this
  exact this.1.1.1.1.1.1.1.1.1.1.1.1.1.2

theorem State.WindowLaws.traffic {s : State} (h : s.WindowLaws) {f : FlowId}
    (ht : (s.flow f).takesBlocks = true) : (s.flow f).TrafficWhole (s.profile f).window :=
  (Flow.whole_iff_traffic ht).1 (h.flows f)

theorem State.WindowLaws.finish {s : State} (h : s.WindowLaws) : s.finish.WindowLaws :=
  h.congr (finish_kept s)

theorem State.WindowLaws.modifyFlow {s : State} (h : s.WindowLaws) {f : FlowId} {g : Flow → Flow}
    (hw : (g (s.flow f)).Whole (s.profile f).window) : (s.modifyFlow f g).WindowLaws :=
  h.set ⟨rfl, rfl⟩ hw

/-- A change that a flow in OPEN, DRAINING or CLOSING takes without a change of state. -/
theorem State.WindowLaws.modifyTraffic {s : State} (h : s.WindowLaws) {f : FlowId} {g : Flow → Flow}
    (ht : (s.flow f).takesBlocks = true) (hs : (g (s.flow f)).state = (s.flow f).state)
    (hg : ∀ w, w ≤ 64 → w = (s.profile f).window →
      (s.flow f).TrafficWhole w → (g (s.flow f)).TrafficWhole w) :
    (s.modifyFlow f g).WindowLaws := by
  have ht' : (g (s.flow f)).takesBlocks = true := by rwa [Flow.takesBlocks, hs]
  exact h.modifyFlow ((Flow.whole_iff_traffic ht').2 (hg _ (h.window_le f) rfl (h.traffic ht)))

/-- 3.1: a block that a flow at rest may owe becomes pending. -/
theorem State.WindowLaws.makePending {s : State} (h : s.WindowLaws) (f : FlowId) {b : LifecycleBlock}
    (hb : b.owedAtRest = true) : (s.makePending f b).WindowLaws :=
  h.set (makePending_kept s f b) ((h.flows f).owing (by simpa using hb))

theorem State.WindowLaws.clearPending {s : State} (h : s.WindowLaws) (f : FlowId) :
    (s.clearPending f).WindowLaws :=
  h.set (clearPending_kept s f) ((h.flows f).owing (by simp))

theorem State.WindowLaws.makeOpenPending {s : State} (h : s.WindowLaws) {f : FlowId}
    (ho : (s.flow f).state = .opening) : (s.makeOpenPending f).WindowLaws :=
  h.set (makePending_kept s f _) ((h.flows f).owingOpen ho _ _)

/-- R51: an entry to CLOSED or FAILED. -/
theorem State.WindowLaws.endFlow {s : State} (h : s.WindowLaws) (f : FlowId) {new : FlowState}
    (hn : new = .closed ∨ new = .failed) (cause : FlowCause) (failure : Option FailureCause) {keep : Bool}
    (hk : keep = true → ∀ b ∈ (s.flow f).pendingBlock, b.owedAtRest = true)
    (o : DeferredCode → Completion × Option Detail) :
    (s.endFlow f new cause failure keep o).WindowLaws :=
  h.set (endFlow_kept s f new cause failure keep o) (Flow.ended_whole _ hn failure hk _)

/-- R51: an entry that clears the pending block. -/
theorem State.WindowLaws.endFlow_clearing {s : State} (h : s.WindowLaws) (f : FlowId) {new : FlowState}
    (hn : new = .closed ∨ new = .failed) (cause : FlowCause) (failure : Option FailureCause)
    (o : DeferredCode → Completion × Option Detail) :
    (s.endFlow f new cause failure false o).WindowLaws :=
  h.endFlow f hn cause failure (by simp) o

/-- R51: an entry with a block that has just become pending. -/
theorem State.WindowLaws.endFlow_owing {s : State} (h : s.WindowLaws) (f : FlowId) {b : LifecycleBlock}
    (hb : b.owedAtRest = true) {new : FlowState} (hn : new = .closed ∨ new = .failed) (cause : FlowCause)
    (failure : Option FailureCause) (o : DeferredCode → Completion × Option Detail) :
    ((s.makePending f b).endFlow f new cause failure true o).WindowLaws :=
  (h.makePending f hb).endFlow f hn cause failure (by simp [State.flow, hb]) o

/-- R58. -/
theorem State.WindowLaws.completeDrain {s : State} (h : s.WindowLaws) (f : FlowId) :
    (s.completeDrain f).WindowLaws := by
  unfold State.completeDrain
  split
  · next hd =>
    split
    · exact h.set (by simp [State.flow]) ((h.flows f).drainedLocally hd)
    · exact h.endFlow_owing f rfl (.inl rfl) _ _ _
    · exact h
  · exact h

end Sys2Proof.Machine

namespace Sys2Proof.Machine

/-! ## The sender half (section 1) -/

@[simp] theorem takeStatus_state (fl : Flow) (base : Nat) (a : Seq) (map : BitVec 64) (high : Option Seq) :
    (fl.takeStatus base a map high).state = fl.state := by
  have hstop : ∀ u : Flow, u.stopIfIdle.state = u.state := fun u => by
    unfold Flow.stopIfIdle
    split <;> rfl
  unfold Flow.takeStatus
  rw [hstop, Flow.marks_eq, Flow.resetAfterAdvance_eq]
  rfl

/-- R11: a STATUS at a flow in OPEN, DRAINING or CLOSING. -/
theorem statusAtFlow_of_traffic {s : State} {f : FlowId} (ht : (s.flow f).takesBlocks = true) (a : Seq)
    (map : BitVec 64) (high : Option Seq) :
    s.statusAtFlow f a map high =
      if (s.flow f).statusStale a then
        s.countFlow f fun c => { c with statusStale := c.statusStale + 1 }
      else ((s.modifyFlow f (·.takeStatus (s.profile f).rtoBase a map high)).releaseFlow f
        ((s.flow f).releasedBuffers a)).completeDrain f := by
  unfold State.statusAtFlow
  rcases (s.flow f).takesBlocks_iff.1 ht with hs | hs | hs <;> simp only [hs]

/-- R11 to R16, R58. -/
theorem State.WindowLaws.statusAtFlow {s : State} (h : s.WindowLaws) (f : FlowId) (a : Seq)
    (map : BitVec 64) (high : Option Seq) : (s.statusAtFlow f a map high).WindowLaws := by
  cases ht : (s.flow f).takesBlocks with
  | true =>
    rw [statusAtFlow_of_traffic ht]
    split
    · exact h.congr ⟨rfl, rfl⟩
    · next hstale =>
      have hm : (s.modifyFlow f (·.takeStatus (s.profile f).rtoBase a map high)).WindowLaws :=
        h.modifyTraffic ht (takeStatus_state _ _ _ _ _) fun w hw _ hf =>
          hf.takeStatus hw (by simpa using hstale) _ map high
      exact (hm.congr (releaseFlow_kept _ f _)).completeDrain f
  | false =>
    unfold State.statusAtFlow
    unfold Flow.takesBlocks at ht
    split
    · exact h
    · exact h
    · exact h.congr (countStale_kept s)
    all_goals simp_all

/-- R7: what a flow that offers data is. -/
theorem offersData_cases {s : State} {f : FlowId} (h : s.offersData f = true) :
    (s.flow f).takesBlocks = true ∧ (s.flow f).state ≠ .closing ∧ (s.flow f).suspended = false ∧
      ((∃ e, (s.flow f).firstDue = some e) ∨
        (s.flow f).sendQueue ≠ [] ∧ (s.flow f).window.length < (s.profile f).window) := by
  simp only [State.offersData, Flow.offersData, Bool.and_eq_true, Bool.or_eq_true, beq_iff_eq,
    Bool.not_eq_true', List.isEmpty_eq_false_iff, decide_eq_true_iff, Option.isSome_iff_exists] at h
  obtain ⟨⟨hs, hsus⟩, hwork⟩ := h
  refine ⟨(s.flow f).takesBlocks_iff.2 (by tauto), ?_, hsus, hwork⟩
  rcases hs with hs | hs <;> simp [hs]

@[simp] theorem sendData_kept (s : State) (f : FlowId) (cls : PortClass) (epoch : Epoch) (body : BlockBody) :
    (s.sendData f cls epoch body).flows = s.flows ∧ (s.sendData f cls epoch body).tables = s.tables := by
  simp [State.sendData]

/-- R9, R20 to R22. -/
theorem State.WindowLaws.serveDue {s : State} (h : s.WindowLaws) {f : FlowId} (cls : PortClass)
    (epoch : Epoch) {e : WindowEntry} (ht : (s.flow f).takesBlocks = true)
    (hc : (s.flow f).state ≠ .closing) (he : (s.flow f).firstDue = some e) :
    (s.serveDue f cls epoch e).WindowLaws := by
  have hdue : e.due = true := List.find?_some he
  have hmem : e ∈ (s.flow f).window := List.mem_of_find?_eq_some he
  unfold State.serveDue
  split
  · have hm : (s.modifyFlow f (·.resend e.seq)).WindowLaws := h.modifyTraffic ht rfl fun w hw _ hf =>
      hf.sentAgain hw hc resend_seq hmem (resend_inFlight hdue)
    exact hm.congr (by simp [State.sendAgain])
  · split
    · have hm : (s.modifyFlow f (·.skip e.seq)).WindowLaws := h.modifyTraffic ht rfl fun w hw _ hf =>
        hf.sentAgain hw hc (g := fun e => { e with condition := .skipped .sent, transmissions := 1 })
          (fun _ => rfl) hmem rfl
      exact hm.congr (by simp [State.sendSkip, State.flow])
    · exact h.endFlow_owing f rfl (.inr rfl) _ _ _

theorem State.WindowLaws.dataGrantAt {s : State} (h : s.WindowLaws) (f : FlowId) (cls : PortClass) :
    (s.dataGrantAt f cls).WindowLaws := by
  unfold State.dataGrantAt
  split
  · exact h
  · next epoch _ =>
    split
    · next ho =>
      obtain ⟨ht, hc, -, hwork⟩ := offersData_cases ho
      unfold State.serveData
      split
      · next e he => exact h.serveDue cls epoch ht hc he
      · next hnone =>
        split
        · next frame rest hq =>
          have hroom : (s.flow f).window.length < (s.profile f).window := by simpa [hnone, hq] using hwork
          have hm : (s.modifyFlow f (·.takeNew frame rest)).WindowLaws :=
            h.modifyTraffic ht rfl fun w _ hw hf => hf.takeNew hc (hw ▸ hroom) frame rest
          exact hm.congr (by simp [State.sendNew])
        · exact h
    · exact h

/-! ## The receiver half (section 2) -/

theorem State.WindowLaws.advanceExpected {s : State} (h : s.WindowLaws) {f : FlowId}
    (ht : (s.flow f).takesBlocks = true) : (s.advanceExpected f).WindowLaws := by
  have hm : (s.modifyFlow f (·.afterRun (s.flow f).advance)).WindowLaws :=
    h.modifyTraffic ht rfl fun w _ _ hf => hf.afterRun
  exact hm.congr (deliverAll_kept _ f _)

theorem advanceExpected_flow (s : State) (f : FlowId) :
    (s.advanceExpected f).flow f = (s.flow f).afterRun (s.flow f).advance := by
  simp [State.advanceExpected, State.flow]

theorem State.WindowLaws.acceptData {s : State} (h : s.WindowLaws) {f : FlowId}
    (ht : (s.flow f).takesBlocks = true) : (s.acceptData f).WindowLaws :=
  h.modifyTraffic ht rfl fun _ _ _ hf => hf.acceptData _

theorem State.WindowLaws.setStatusPending {s : State} (h : s.WindowLaws) {f : FlowId}
    (ht : (s.flow f).takesBlocks = true) : (s.setStatusPending f).WindowLaws :=
  h.modifyTraffic ht rfl fun _ _ _ hf => { hf with }

theorem State.WindowLaws.insertMember {s : State} (h : s.WindowLaws) {f : FlowId} {m : Member}
    (ht : (s.flow f).takesBlocks = true) (hpos : seqDistance (s.flow f).expected m.seq ≠ 0)
    (hlt : seqDistance (s.flow f).expected m.seq < (s.profile f).window)
    (hn : (s.flow f).hasMember m.seq = false) : (s.insertMember f m).WindowLaws :=
  h.modifyTraffic ht rfl fun _ _ hw hf => hf.insertMember hpos (hw ▸ hlt) hn

/-- R65. -/
theorem State.WindowLaws.dataElsewhere {s : State} (h : s.WindowLaws) (f : FlowId) :
    (s.dataElsewhere f).WindowLaws := by
  unfold State.dataElsewhere
  split
  · exact h.makePending f rfl
  · exact h.congr (countStale_kept s)
  all_goals exact h

/-- A member joins the set, and status becomes pending: no state changes. -/
theorem insertMember_takesBlocks (s : State) (f : FlowId) (m : Member) :
    ((s.insertMember f m).flow f).takesBlocks = (s.flow f).takesBlocks := by
  simp [State.insertMember]; rfl

/-- R29 to R33. -/
theorem State.WindowLaws.dataInOrder {s : State} (h : s.WindowLaws) {f : FlowId}
    (ht : (s.flow f).takesBlocks = true) (frame : Frame) : (s.dataInOrder f frame).WindowLaws := by
  unfold State.dataInOrder
  split
  · exact h.congr ⟨rfl, rfl⟩
  · next u hu =>
    have hk := grantFlow_kept hu
    have hd : (u.deliver f frame).WindowLaws := h.congr (by simpa using hk)
    have hf : (u.deliver f frame).flow f = s.flow f := by simp [State.flow, hk]
    refine (hd.advanceExpected (hf ▸ ht)).acceptData ?_
    rw [advanceExpected_flow, hf]
    exact ht

theorem State.WindowLaws.dataEarly {s : State} (h : s.WindowLaws) {f : FlowId}
    (ht : (s.flow f).takesBlocks = true) {q : Seq} (hpos : seqDistance (s.flow f).expected q ≠ 0)
    (hlt : seqDistance (s.flow f).expected q < (s.profile f).window) (hn : (s.flow f).hasMember q = false)
    (frame : Frame) : (s.dataEarly f q frame).WindowLaws := by
  unfold State.dataEarly
  split
  · exact h.congr ⟨rfl, rfl⟩
  · next u hu =>
    have hk := grantFlow_kept hu
    have joined : ∀ v : State, v.flows = u.flows ∧ v.tables = u.tables → ∀ kind,
        (((v.insertMember f ⟨q, kind⟩).setStatusPending f).acceptData f).WindowLaws := by
      intro v hv kind
      have hvs : v.flows = s.flows ∧ v.tables = s.tables := ⟨hv.1.trans hk.1, hv.2.trans hk.2⟩
      have hf : v.flow f = s.flow f := by simp [State.flow, hvs]
      have hp : v.profile f = s.profile f := by simp [State.profile, hvs]
      have hi : ((v.insertMember f ⟨q, kind⟩).flow f).takesBlocks = true := by
        rw [insertMember_takesBlocks, hf]; exact ht
      refine (((h.congr hvs).insertMember ?_ ?_ ?_ ?_).setStatusPending hi).acceptData ?_
      · rw [hf]; exact ht
      · rw [hf]; exact hpos
      · rw [hf, hp]; exact hlt
      · rw [hf]; exact hn
      · rw [State.setStatusPending, flow_modifyFlow_same]; exact hi
    simp only
    split
    · exact joined u ⟨rfl, rfl⟩ _
    · exact joined (u.deliver f frame) (deliver_kept u f frame) _

/-- R28, R65. -/
theorem State.WindowLaws.dataAtFlow {s : State} (h : s.WindowLaws) (f : FlowId) (q : Seq) (frame : Frame) :
    (s.dataAtFlow f q frame).WindowLaws := by
  have hdup : (s.flow f).takesBlocks = true → (s.dataDuplicate f).WindowLaws := fun ht =>
    State.WindowLaws.setStatusPending (s := s.countFlow f _) (h.congr ⟨rfl, rfl⟩) ht
  unfold State.dataAtFlow
  split
  · next ht =>
    unfold State.sortData
    simp only
    split
    · exact h.dataInOrder ht frame
    · next hpos =>
      split
      · next hlt =>
        split
        · exact hdup ht
        · next hn => exact h.dataEarly ht hpos hlt (by simpa using hn) frame
      · split
        · exact h.congr ⟨rfl, rfl⟩
        · exact hdup ht
  · exact h.dataElsewhere f

/-- R38, R65. -/
theorem State.WindowLaws.advanceAtFlow {s : State} (h : s.WindowLaws) (f : FlowId) (q : Seq) :
    (s.advanceAtFlow f q).WindowLaws := by
  unfold State.advanceAtFlow
  split
  · next ht =>
    unfold State.sortAdvance
    simp only
    split
    · exact (h.advanceExpected ht).setStatusPending (by rw [advanceExpected_flow]; exact ht)
    · next hpos =>
      split
      · next hlt =>
        split
        · exact h.setStatusPending ht
        · next hn =>
          exact (h.insertMember ht hpos hlt (by simpa using hn)).setStatusPending
            (by rw [insertMember_takesBlocks]; exact ht)
      · split
        · exact State.WindowLaws.setStatusPending (s := s.countFlow f _) (h.congr ⟨rfl, rfl⟩) ht
        · exact h.setStatusPending ht
  · exact h.dataElsewhere f

/-- R43. -/
theorem State.WindowLaws.statusGrantAt {s : State} (h : s.WindowLaws) (f : FlowId) :
    (s.statusGrantAt f).WindowLaws := by
  unfold State.statusGrantAt
  split
  · exact h
  · split
    · next ho =>
      have ht : (s.flow f).takesBlocks = true := by
        simp only [Flow.offersStatus, Bool.and_eq_true] at ho
        exact ho.1.2
      have hm : (s.modifyFlow f (·.statusSent)).WindowLaws :=
        h.modifyTraffic ht rfl fun _ _ _ hf => { hf with since := by simp [Flow.statusSent] }
      exact hm.congr (by simp)
    · exact h

end Sys2Proof.Machine

namespace Sys2Proof.Machine

/-! ## The lifecycle (section 3) -/

/-- R94, R54: a reservation made and the context reinitialised. -/
theorem prepareOpening_some {s t : State} {f : FlowId} (h : s.prepareOpening f = some t) :
    t.flows = writeAt s.flows f ((s.flow f).reinitialised (s.profile f).rtoBase) ∧ t.tables = s.tables := by
  obtain ⟨u, hu, rfl⟩ := Option.map_eq_some_iff.1 h
  have hk := reserveFlow_kept hu
  simp [State.flow, State.profile, hk]

/-- R54. -/
theorem State.WindowLaws.openAtClosed {s : State} (h : s.WindowLaws) {f : FlowId}
    (hs : (s.flow f).state = .closed) (window : Nat) (order : OrderMode) :
    (s.openAtClosed f window order).WindowLaws := by
  unfold State.openAtClosed
  simp only
  split
  · exact h.makePending f rfl
  · split
    · exact h.makePending f rfl
    · split
      · exact h.makePending f rfl
      · next u hu =>
        have hk := prepareOpening_some hu
        have hr := (h.flows f).atRest (by simp [Flow.inUse, hs])
        obtain ⟨hrest, hfresh⟩ := Flow.reinitialised_atRest hr (s.profile f).rtoBase
        obtain ⟨-, -, -, -, -, -, -, -, -, -, -, hd, -⟩ := hrest
        have hw := Flow.opened_of_fresh hfresh hd (p := some (.openAck .accept)) (by simp [LifecycleBlock.owedAtRest])
          (s.profile f).window
        exact h.set (by simp [State.flow, hk]) hw

/-- R55: crossed opens. -/
theorem State.WindowLaws.openCrossed {s : State} (h : s.WindowLaws) {f : FlowId}
    (hs : (s.flow f).state = .opening) (window : Nat) (order : OrderMode) :
    (s.openCrossed f window order).WindowLaws := by
  unfold State.openCrossed
  simp only
  split
  · have hw := (h.flows f).opened hs (p := some (.openAck .accept)) (by simp [LifecycleBlock.owedAtRest]) none
    exact h.set (by simp [State.flow]) hw
  · exact h.makePending f rfl

/-- R54, R55. -/
theorem State.WindowLaws.openAtFlow {s : State} (h : s.WindowLaws) (f : FlowId) (window : Nat)
    (order : OrderMode) : (s.openAtFlow f window order).WindowLaws := by
  unfold State.openAtFlow
  split
  · next hs => exact h.openAtClosed hs window order
  · next hs => exact h.openCrossed hs window order
  · exact h.makePending f rfl
  · exact h.congr (countStale_kept s)
  · exact h.congr (countStale_kept s)
  · exact h.makePending f rfl

/-- R56: an OPEN that is pending is cleared. -/
theorem clearOpen_kept (s : State) (f : FlowId) :
    ∃ p, ((s.clearOpen f).flows = writeAt s.flows f { s.flow f with pendingBlock := p } ∧
      (s.clearOpen f).tables = s.tables) ∧
      (p = none ∨ p = (s.flow f).pendingBlock ∧ ∀ w o, p ≠ some (.openFlow w o)) := by
  unfold State.clearOpen
  split
  · exact ⟨none, clearPending_kept s f, .inl rfl⟩
  · next hp => exact ⟨_, ⟨(writeAt_readAt s.flows f).symm, rfl⟩, .inr ⟨rfl, hp⟩⟩

/-- R56. -/
theorem State.WindowLaws.acceptanceAtFlow {s : State} (h : s.WindowLaws) (f : FlowId) :
    (s.acceptanceAtFlow f).WindowLaws := by
  unfold State.acceptanceAtFlow
  split
  · next hs =>
    obtain ⟨p, hk, hp⟩ := clearOpen_kept (s.modifyFlow f fun fl => { fl with openTimer := .stopped }) f
    have howed : ∀ b ∈ p, b.owedAtRest = true := by
      rintro b hb
      rcases hp with rfl | ⟨rfl, hne⟩
      · simp at hb
      · have hclose := ((Flow.whole_iff_opening hs).1 (h.flows f)).2.2
        cases b <;> simp_all [LifecycleBlock.owedAtRest]
    exact h.set (by simp [State.flow, hk]) ((h.flows f).opened hs howed none)
  · exact h.makePending f rfl
  · exact h
  all_goals exact h.congr (countStale_kept s)

/-- R56. -/
theorem State.WindowLaws.openAckAtFlow {s : State} (h : s.WindowLaws) (f : FlowId) (verdict : Verdict) :
    (s.openAckAtFlow f verdict).WindowLaws := by
  unfold State.openAckAtFlow
  split
  · exact h.acceptanceAtFlow f
  · unfold State.refusalAtFlow
    split
    · exact h.endFlow_clearing f (.inl rfl) _ _ _
    all_goals exact h.congr (countStale_kept s)

/-- R60. -/
theorem State.WindowLaws.closeAtFlow {s : State} (h : s.WindowLaws) (f : FlowId) :
    (s.closeAtFlow f).WindowLaws := by
  unfold State.closeAtFlow
  split
  · next hs =>
    have hd : ((s.modifyFlow f fun fl => { fl with drainOrigin := some .peerEnd }).changeFlowState f .draining
        .peerClose).WindowLaws :=
      h.set (by simp [State.flow]) ((h.flows f).draining hs .peerEnd (s.flow f).deferred)
    exact hd.completeDrain f
  · next hs =>
    split
    · have hw := h.flows f
      have hd : ((s.modifyFlow f fun fl => { fl with drainOrigin := some .peerEnd }).completeDeferred f
          .done).WindowLaws :=
        h.set (fl := { s.flow f with drainOrigin := some .peerEnd, deferred := none }) (by simp [State.flow])
          { hw with
            atRest := fun hn => by simp [Flow.inUse, hs] at hn
            origin := by simp [hs] }
      exact hd.completeDrain f
    · exact h
  · exact h.makePending f rfl
  · exact h.makePending f rfl
  · exact h
  · exact h

/-- R61, R63. -/
theorem State.WindowLaws.closeAckAtFlow {s : State} (h : s.WindowLaws) (f : FlowId) :
    (s.closeAckAtFlow f).WindowLaws := by
  unfold State.closeAckAtFlow
  split
  · exact h.endFlow f (.inl rfl) _ _ (by simp +contextual [State.owesCloseAck, LifecycleBlock.owedAtRest]) _
  · exact h

theorem State.WindowLaws.abortAtFlow {s : State} (h : s.WindowLaws) (f : FlowId) :
    (s.abortAtFlow f).WindowLaws := by
  unfold State.abortAtFlow
  split
  · exact h.endFlow_clearing f (.inr rfl) _ _ _
  · exact h

/-- R53, R55, R58, R59: what follows when a grant has taken a pending block. -/
theorem State.WindowLaws.afterTaking {s : State} (h : s.WindowLaws) (f : FlowId) {b : LifecycleBlock}
    (ho : ∀ window order, b = .openFlow window order → (s.flow f).state = .opening)
    (hc : b = .close → (s.flow f).state = .closing) : (s.afterTaking f b).WindowLaws := by
  have hw := h.flows f
  cases b with
  | openFlow window order =>
    have hs := ho window order rfl
    have hm : (s.modifyFlow f fun fl =>
        { fl with attempts := fl.attempts + 1, openTimer := .running 250 }).WindowLaws :=
      h.modifyFlow { hw with atRest := fun hn => by simp [Flow.inUse, hs] at hn }
    exact hm
  | close =>
    have hs := hc rfl
    have hm : (s.modifyFlow f fun fl =>
        { fl with attempts := fl.attempts + 1, retxTimer := .running fl.rto }).WindowLaws :=
      h.modifyFlow { hw with
        atRest := fun hn => by simp [Flow.inUse, hs] at hn
        fresh := fun hn => by simp [hs] at hn
        timer := fun hn => by simp [hs] at hn }
    exact hm
  | openAck verdict =>
    unfold State.afterTaking
    simp only
    split
    · next hs => exact h.makeOpenPending hs.1
    · exact h.completeDrain f
  | closeAck =>
    unfold State.afterTaking
    simp only
    split
    · next hs => exact h.set (makePending_kept s f _) (hw.owingClose hs.1)
    · exact h.completeDrain f
  | abort => exact h.completeDrain f

theorem State.WindowLaws.lifecycleGrantAt {s : State} (h : s.WindowLaws) (f : FlowId) :
    (s.lifecycleGrantAt f).WindowLaws := by
  unfold State.lifecycleGrantAt
  split
  · exact h
  · split
    · exact h
    · split
      · exact h
      · next b hb =>
        have hst : ∀ block, (((s.clearPending f).present block .plain).flow f).state = (s.flow f).state :=
          fun block => by simp [State.flow]
        refine ((h.clearPending f).congr (present_kept _ _ _)).afterTaking f (fun w o e => ?_) fun e => ?_
        · rw [hst]; exact (h.flows f).owed.1 w o (e ▸ hb)
        · rw [hst]; exact (h.flows f).owed.2 (e ▸ hb)

/-- R53. -/
theorem State.WindowLaws.openTimerExpired {s : State} (h : s.WindowLaws) {f : FlowId}
    (hs : (s.flow f).state = .opening) : (s.openTimerExpired f).WindowLaws := by
  unfold State.openTimerExpired
  split
  · have hw := h.flows f
    have hm : (s.modifyFlow f fun fl => { fl with openTimer := .stopped }).WindowLaws :=
      h.modifyFlow { hw with atRest := fun hn => by simp [Flow.inUse, hs] at hn }
    exact hm.makeOpenPending (by simp [State.flow] at *; exact hs)
  · exact h.endFlow_clearing f (.inl rfl) _ _ _

/-- R59. -/
theorem State.WindowLaws.closeSeriesExpired {s : State} (h : s.WindowLaws) {f : FlowId}
    (hs : (s.flow f).state = .closing) : (s.closeSeriesExpired f).WindowLaws := by
  unfold State.closeSeriesExpired
  simp only
  split
  · have hw := (h.flows f).owingClose hs
    exact h.set (fl := { s.flow f with
        rto := doubledRto (s.profile f) (s.flow f).rto, retxTimer := .stopped, pendingBlock := some .close })
      (by simp [State.flow]) { hw with
        atRest := fun hn => by simp [Flow.inUse, hs] at hn
        fresh := fun hn => by simp [hs] at hn
        timer := fun hn => by simp [hs] at hn }
  · exact h.endFlow f (.inl rfl) _ _ (by simp +contextual [State.owesCloseAck, LifecycleBlock.owedAtRest]) _

end Sys2Proof.Machine

namespace Sys2Proof.Machine

/-! ## Changes beside the flows and the tables -/

theorem State.WindowLaws.modifyPart {s : State} (h : s.WindowLaws) (g : Partnership → Partnership) :
    (s.modifyPart g).WindowLaws := h.congr ⟨rfl, rfl⟩

theorem State.WindowLaws.modifyLink {s : State} (h : s.WindowLaws) (g : LinkPort → LinkPort) :
    (s.modifyLink g).WindowLaws := h.congr ⟨rfl, rfl⟩

theorem State.WindowLaws.modifyWire {s : State} (h : s.WindowLaws) (g : WirePort → WirePort) :
    (s.modifyWire g).WindowLaws := h.congr ⟨rfl, rfl⟩

theorem State.WindowLaws.modifyEngine {s : State} (h : s.WindowLaws) (g : Engine → Engine) :
    (s.modifyEngine g).WindowLaws := h.congr ⟨rfl, rfl⟩

theorem State.WindowLaws.countDevice {s : State} (h : s.WindowLaws) (g : DeviceCounters → DeviceCounters) :
    (s.countDevice g).WindowLaws := h.congr ⟨rfl, rfl⟩

theorem State.WindowLaws.countFlow {s : State} (h : s.WindowLaws) (f : FlowId)
    (g : FlowCounters → FlowCounters) : (s.countFlow f g).WindowLaws := h.congr ⟨rfl, rfl⟩

theorem State.WindowLaws.changeLinkState {s : State} (h : s.WindowLaws) (new : LinkState)
    (cause : LinkCause) : (s.changeLinkState new cause).WindowLaws := h.congr ⟨rfl, rfl⟩

theorem State.WindowLaws.completeJoin {s : State} (h : s.WindowLaws) (o : Completion) :
    (s.completeJoin o).WindowLaws := h.congr (completeJoin_kept s o)

/-! ## Events at every flow (R66 to R69, R167) -/

theorem State.WindowLaws.lossAtFlow {s : State} (h : s.WindowLaws) (f : FlowId) :
    (s.lossAtFlow f).WindowLaws := by
  unfold State.lossAtFlow
  split
  · exact h.endFlow_clearing f (.inl rfl) _ _ _
  · next hs => exact h.modifyFlow ((h.flows f).suspended (by simp [Flow.takesBlocks, hs]))
  · next hs => exact h.modifyFlow ((h.flows f).suspended (by simp [Flow.takesBlocks, hs]))
  · next hs => exact h.modifyFlow ((h.flows f).suspended (by simp [Flow.takesBlocks, hs]))
  · exact h
  · exact h

/-- R67. -/
theorem State.WindowLaws.regainAtFlow {s : State} (h : s.WindowLaws) (f : FlowId) :
    (s.regainAtFlow f).WindowLaws := by
  unfold State.regainAtFlow
  split
  · next hsus =>
    have ht := (h.flows f).takesBlocks_of_suspended hsus
    have hm : (s.modifyFlow f (·.resumed (s.profile f).rtoBase)).WindowLaws :=
      h.modifyFlow ((h.flows f).resumed ht _)
    simp only
    split
    · next hs => exact hm.set (makePending_kept _ f _) ((hm.flows f).owingClose hs.1)
    · exact hm.completeDrain f
  · exact h

theorem State.WindowLaws.partnershipEndAtFlow {s : State} (h : s.WindowLaws) (failure : FailureCause)
    (f : FlowId) : (State.partnershipEndAtFlow failure s f).WindowLaws := by
  unfold State.partnershipEndAtFlow
  split
  · exact h.endFlow_clearing f (.inl rfl) _ _ _
  · exact h.endFlow_clearing f (.inr rfl) _ _ _
  · exact h.endFlow_clearing f (.inr rfl) _ _ _
  · exact h.endFlow_clearing f (.inr rfl) _ _ _
  · exact h
  · exact h

theorem State.WindowLaws.leaveAtFlow {s : State} (h : s.WindowLaws) (f : FlowId) :
    (s.leaveAtFlow f).WindowLaws := by
  unfold State.leaveAtFlow
  split
  · exact h.endFlow_clearing f (.inr rfl) _ _ _
  · exact h

theorem State.WindowLaws.localLeaveAtFlow {s : State} (h : s.WindowLaws) (f : FlowId) :
    (s.localLeaveAtFlow f).WindowLaws := by
  unfold State.localLeaveAtFlow
  split
  · exact h.endFlow_clearing f (.inl rfl) _ _ _
  · exact h

theorem State.WindowLaws.eachFlow {s : State} (h : s.WindowLaws) {g : State → FlowId → State}
    (hg : ∀ u f, u.WindowLaws → (g u f).WindowLaws) : (s.eachFlow g).WindowLaws :=
  eachFlow_keeps hg h

theorem State.WindowLaws.discardPending {s : State} (h : s.WindowLaws) : s.discardPending.WindowLaws := by
  rw [discardPending_eq]
  exact h.each rfl fun f => by simpa [State.flow] using (h.flows f).owing (p := none) (by simp)

theorem State.WindowLaws.applyRestart {s : State} (h : s.WindowLaws) : s.applyRestart.WindowLaws := by
  refine h.each (applyRestart_restarted s).tables fun f => ?_
  rw [(applyRestart_restarted s).flows]
  exact Flow.initial_whole _ _

theorem State.WindowLaws.responseDeparted {s : State} (h : s.WindowLaws) : s.responseDeparted.WindowLaws := by
  unfold State.responseDeparted
  split
  · exact h.congr ⟨rfl, rfl⟩
  · exact h.applyRestart

theorem State.WindowLaws.discardReplies {s : State} (h : s.WindowLaws) : s.discardReplies.WindowLaws := by
  unfold State.discardReplies
  simp only
  split
  · exact State.WindowLaws.responseDeparted (h.congr ⟨rfl, rfl⟩)
  · exact h.congr ⟨rfl, rfl⟩

/-- R19, R41: one millisecond passes. -/
theorem State.WindowLaws.tick {s : State} (h : s.WindowLaws) : s.tick.WindowLaws := by
  have ht : s.tick.tables = s.tables := by simp only [State.tick]
  refine h.each ht fun f => ?_
  have hf : s.tick.flow f = (s.flow f).tick := by simp [State.tick, State.flow]
  rw [hf]
  exact (h.flows f).tick

theorem Profile.initial_inRange : Profile.initial.inRange = true := by decide

theorem powerOn_windowLaws (unitId : Address) (draws : Nat) (pending : List Instr) :
    (State.powerOn unitId draws pending).WindowLaws where
  flows f := by simpa [State.powerOn, State.flow] using Flow.initial_whole _ _
  profiles bank f := by
    cases bank <;>
      simpa [State.powerOn, TableStore.initial, TableStore.bank, Bank.initial] using Profile.initial_inRange

/-! ## The partnership (section 4) -/

/-- R77. -/
theorem State.WindowLaws.helloInJoining {s : State} (h : s.WindowLaws) (epoch : Epoch) (unit : Address)
    (seen : Option Epoch) : (s.helloInJoining epoch unit seen).WindowLaws := by
  unfold State.helloInJoining
  simp only
  split
  · exact h.congr (by simp [State.handshake])
  · exact h.congr ⟨rfl, rfl⟩

/-- R80. -/
theorem State.WindowLaws.partnerRestart {s : State} (h : s.WindowLaws) (epoch : Epoch) (unit : Address)
    (seen : Option Epoch) : (s.partnerRestart epoch unit seen).WindowLaws := by
  have h1 := ((h.changeLinkState .joining .partnerRestart).eachFlow fun u f hu =>
    hu.partnershipEndAtFlow .partnerRestart f).discardPending
  simp only [State.partnerRestart]
  exact (h1.modifyPart _).helloInJoining _ _ _

/-- R79. -/
theorem State.WindowLaws.regain {s : State} (h : s.WindowLaws) : s.regain.WindowLaws := by
  simp only [State.regain]
  exact ((h.changeLinkState .partnered .regained).modifyPart _).eachFlow fun u f hu => hu.regainAtFlow f

/-- R76 to R80. -/
theorem State.WindowLaws.helloAtPartnership {s : State} (h : s.WindowLaws) (epoch : Epoch) (unit : Address)
    (seen : Option Epoch) : (s.helloAtPartnership epoch unit seen).WindowLaws := by
  unfold State.helloAtPartnership
  split
  · exact h.congr (countStale_kept s)
  · split
    · exact h.congr (countForeign_kept s)
    · split
      · exact h.congr (countForeign_kept s)
      · exact h.helloInJoining _ _ _
  · split
    · exact h.congr (countForeign_kept s)
    · unfold State.helloInPartnered
      split
      · exact h.congr ⟨rfl, rfl⟩
      · exact h.partnerRestart _ _ _
  · split
    · exact h.congr (countForeign_kept s)
    · unfold State.helloInLost
      split
      · split
        · exact h.regain
        · exact h.congr ⟨rfl, rfl⟩
      · exact h.partnerRestart _ _ _

/-- R87. -/
theorem State.WindowLaws.leaveAtPartnership {s : State} (h : s.WindowLaws) (epoch : Epoch) :
    (s.leaveAtPartnership epoch).WindowLaws := by
  unfold State.leaveAtPartnership
  split
  · have h1 := ((h.changeLinkState .silent .partnerLeft).eachFlow fun u f hu => hu.leaveAtFlow f).discardPending
    simp only [State.partnerLeft]
    exact (h1.modifyPart _).discardReplies
  · exact h.congr (countStale_kept s)

/-- R86. -/
theorem State.WindowLaws.localLeave {s : State} (h : s.WindowLaws) : s.localLeave.WindowLaws := by
  have h1 := ((h.changeLinkState .silent .request).eachFlow fun u f hu => hu.localLeaveAtFlow f).discardPending
  simp only [State.localLeave]
  exact ((h1.modifyPart _).completeJoin .aborted).discardReplies

/-- R74. -/
theorem State.WindowLaws.partnershipGrantAt {s : State} (h : s.WindowLaws) :
    s.partnershipGrantAt.WindowLaws := by
  unfold State.partnershipGrantAt
  split
  · exact h.congr (by simp [State.sendLeave])
  · split
    · exact h.congr (by simp [State.sendHello])
    · split
      · exact h.congr (by simp [State.sendKeepalive])
      · exact h
  · exact h

/-- R84. -/
theorem State.WindowLaws.joinExpired {s : State} (h : s.WindowLaws) : s.joinExpired.WindowLaws := by
  simp only [State.joinExpired]
  exact (((h.changeLinkState .silent .joinTimeout).modifyPart _).completeJoin .timeout).discardReplies

/-- R81. -/
theorem State.WindowLaws.silenceExpired {s : State} (h : s.WindowLaws) : s.silenceExpired.WindowLaws := by
  simp only [State.silenceExpired]
  exact ((h.changeLinkState .lost .silence).modifyPart _).eachFlow fun u f hu => hu.lossAtFlow f

/-- R83. -/
theorem State.WindowLaws.holdExpired {s : State} (h : s.WindowLaws) : s.holdExpired.WindowLaws := by
  have h1 := ((h.changeLinkState .joining .holdExpired).eachFlow fun u f hu =>
    hu.partnershipEndAtFlow .partnerLost f).discardPending
  simp only [State.holdExpired]
  exact State.WindowLaws.modifyPart (h1.congr (drawEpoch_kept _)) _

/-! ## The ports (sections 6 and 8) -/

/-- R2, R109 to R112. -/
theorem State.WindowLaws.classifyFrame {s : State} (h : s.WindowLaws) (v : FrameView) (frame : Frame) :
    (s.classifyFrame v frame).WindowLaws := by
  unfold State.classifyFrame
  split
  · next i _ =>
    have hh : (s.countHit i).WindowLaws := h.congr ⟨rfl, rfl⟩
    unfold State.entryAction
    split
    · exact hh
    · exact hh.congr (bulkPath_kept _ _ _)
    · next f _ =>
      unfold State.offerFrame
      split
      · next ho =>
        unfold State.acceptFrame
        split
        · next u hu =>
          have hk := grantFlow_kept hu
          have hw := hh.flows f
          exact hh.set (fl := { (s.countHit i).flow f with sendQueue := ((s.countHit i).flow f).sendQueue ++ [frame] })
            (by simp [State.flow, hk]) { hw with
              atRest := fun hn => by simp [Flow.inUse, ho] at hn
              fresh := fun hn => by simp [ho] at hn
              acknowledged := fun hn => by simp [ho] at hn }
        · exact hh.congr ⟨rfl, rfl⟩
      · exact hh.congr (by simp)
  · exact h.congr (by simp)

/-- R103, R105. -/
theorem State.WindowLaws.receiveFrame {s : State} (h : s.WindowLaws) (received : List Byte) (bad : Bool) :
    (s.receiveFrame received bad).WindowLaws := by
  unfold State.receiveFrame
  split
  · simp only
    split
    · exact h.congr (intake_kept _ _ _)
    · exact h.classifyFrame _ _
  · exact h.congr ⟨rfl, rfl⟩

/-- R146. -/
theorem State.WindowLaws.wireEnd {s : State} (h : s.WindowLaws) (owner : WireOwner) :
    (s.wireEnd owner).WindowLaws := by
  unfold State.wireEnd
  split
  · exact h
  · exact h.congr (releaseAccount_kept _ _)
  · simp only
    split
    · exact State.WindowLaws.responseDeparted (h.congr ⟨rfl, rfl⟩)
    · exact h.congr ⟨rfl, rfl⟩

theorem State.WindowLaws.wireDown {s : State} (h : s.WindowLaws) : s.wireDown.WindowLaws := by
  unfold State.wireDown
  simp only
  split
  · exact (State.WindowLaws.wireEnd (s := s.modifyWire fun w => { w with linkUp := false }) (h.congr ⟨rfl, rfl⟩)
      _).congr ⟨rfl, rfl⟩
  · exact h.congr ⟨rfl, rfl⟩

/-- R113, R152. -/
theorem State.WindowLaws.bulkGrantAt {s : State} (h : s.WindowLaws) : s.bulkGrantAt.WindowLaws := by
  unfold State.bulkGrantAt
  split
  · exact h
  · split
    · exact h.congr (by simp [State.bulkTaken])
    · split
      · exact h.congr (by simp [State.bulkTaken])
      · exact h

/-- R140. -/
theorem State.WindowLaws.linkEnd {s : State} (h : s.WindowLaws) (owner : LinkOwner) :
    (s.linkEnd owner).WindowLaws := by
  unfold State.linkEnd
  split
  · exact h
  · exact h.congr (releaseBulk_kept s)
  · exact h.applyRestart
  · simp only
    split
    · exact State.WindowLaws.responseDeparted (h.congr ⟨rfl, rfl⟩)
    · exact h.congr ⟨rfl, rfl⟩

/-- R143. -/
@[simp] theorem deliverBlock_kept (s : State) (received : List Byte) (bad : Bool) :
    (s.deliverBlock received bad).flows = s.flows ∧ (s.deliverBlock received bad).tables = s.tables := by
  unfold State.deliverBlock
  split
  · exact ⟨rfl, rfl⟩
  · split <;> exact ⟨rfl, rfl⟩

/-- R88: a block that passes the test of its epoch, or is stale. -/
theorem State.WindowLaws.ifAccepted {s u : State} (h : s.WindowLaws)
    (hu : u.flows = s.flows ∧ u.tables = s.tables) (epoch : Epoch) {d : State → State}
    (hd : ∀ v : State, v.WindowLaws → (d v).WindowLaws) : (u.ifAccepted epoch d).WindowLaws := by
  have h' := h.congr hu
  unfold State.ifAccepted
  split
  · exact hd _ (h'.congr (restartSilence_kept u))
  · exact h'.congr (countStale_kept u)

end Sys2Proof.Machine

namespace Sys2Proof.Machine

/-! ## The requests (sections 7, 9 and 10) -/

/-- R156: the answer of a request changes no flow and no table. -/
@[simp] theorem answerRequest_kept (s : State) (r : Request) (a : Answer) :
    (s.answerRequest r a).flows = s.flows ∧ (s.answerRequest r a).tables = s.tables := by
  obtain ⟨w, replies, e, -⟩ := answerRequest_eq s r a
  rw [e]
  exact ⟨rfl, rfl⟩

@[simp] theorem refuseUnbound_kept (s : State) (r : Request) :
    (s.refuseUnbound r).flows = s.flows ∧ (s.refuseUnbound r).tables = s.tables := by
  simp [State.refuseUnbound, State.respond]

theorem State.WindowLaws.executeRequest {s : State} (h : s.WindowLaws) (r : Request)
    {work : Request → State → Answer × State} (hw : ∀ r u, u.WindowLaws → (work r u).2.WindowLaws) :
    (s.executeRequest r work).WindowLaws := by
  unfold State.executeRequest
  split
  · exact h.congr (refuseUnbound_kept s r)
  · exact (hw r s h).congr (answerRequest_kept _ r _)

/-- R156: a request whose work keeps the laws keeps them. -/
theorem State.WindowLaws.execute {s t : State} (h : s.WindowLaws) {named : Byte → Bool}
    {work : Request → State → Answer × State} (e : s.execute named work = .next t)
    (hw : ∀ r u, u.WindowLaws → (work r u).2.WindowLaws) : t.WindowLaws := by
  unfold State.execute at e
  split at e
  · cases e; exact h
  · next r _ =>
    split at e
    · cases e; exact (State.WindowLaws.executeRequest (s := s.begin r) (h.modifyEngine _) r hw).finish
    · cases e; exact h

/-- A request without body. -/
theorem State.WindowLaws.bodyless {s : State} (h : s.WindowLaws) (r : Request) {work : Answer × State}
    (hw : work.2.WindowLaws) : (bodyless r s work).2.WindowLaws := by
  unfold Machine.bodyless
  split
  · exact hw
  · exact h

/-- A request that names a flow. -/
theorem State.WindowLaws.withFlow {s : State} (h : s.WindowLaws) (r : Request)
    {work : FlowId → Answer × State} (hw : ∀ f, (work f).2.WindowLaws) : (withFlow r s work).2.WindowLaws := by
  unfold Machine.withFlow
  split
  · exact h
  · exact hw _

theorem State.WindowLaws.bindWork {s : State} (h : s.WindowLaws) (r : Request) :
    (bindWork r s).2.WindowLaws := by
  unfold Machine.bindWork bindWith
  simp only
  split
  · split
    · exact h.congr ⟨rfl, rfl⟩
    · split
      · exact h.congr ⟨rfl, rfl⟩
      · exact h
  · exact h

theorem State.WindowLaws.readTableWork {s : State} (h : s.WindowLaws) (r : Request) :
    (readTableWork r s).2.WindowLaws := by
  unfold Machine.readTableWork
  simp only
  split
  · split <;> exact h
  · exact h

/-! ### The tables (R122 to R130) -/

/-- Table 7.2: every profile of a bank is in range. -/
def Bank.ProfilesInRange (b : Bank) : Prop := ∀ f, (readAt b.profiles f).inRange = true

theorem profileOfBytes_inRange {e : List Byte} {p : Profile} (h : profileOfBytes e = some p) :
    p.inRange = true := by
  simp only [profileOfBytes, bind, Option.bind_eq_some_iff] at h
  obtain ⟨_, -, _, -, _, -, _, -, _, -, h⟩ := h
  split at h
  · next hr => cases h; exact hr
  · cases h

/-- R124, R125: what WRITE_TABLE writes is in range. -/
theorem writeEntry_inRange {b b' : Bank} (h : b.ProfilesInRange) {t : TableName} {i : Nat} {bytes : List Byte}
    (e : b.writeEntry t i bytes = some b') : b'.ProfilesInRange := by
  cases t with
  | classification => obtain ⟨_, _, rfl⟩ := Option.map_eq_some_iff.1 e; exact h
  | default => obtain ⟨_, _, rfl⟩ := Option.map_eq_some_iff.1 e; exact h
  | profile =>
    obtain ⟨p, hp, rfl⟩ := Option.map_eq_some_iff.1 e
    intro f
    simp only [readAt, Vector.getElem_setIfInBounds]
    split
    · exact profileOfBytes_inRange hp
    · exact h f

theorem writeEntries_inRange {b b' : Bank} (h : b.ProfilesInRange) {t : TableName} {count i : Nat}
    {bytes : List Byte} (e : b.writeEntries t count i bytes = .written b') : b'.ProfilesInRange := by
  induction count generalizing b i bytes with
  | zero => cases e; exact h
  | succ count ih =>
    simp only [Bank.writeEntries] at e
    split at e
    · cases e
    · next hb => exact ih (writeEntry_inRange h hb) e

theorem setShadow_active (t : TableStore) (b : Bank) :
    (t.setShadow b).active = t.active ∧ (t.setShadow b).activeBank = t.activeBank := by
  cases h : t.active <;> simp [TableStore.setShadow, TableStore.activeBank, TableStore.bank, h]

theorem setShadow_bank (t : TableStore) (b : Bank) (id : BankId) :
    (t.setShadow b).bank id = b ∨ (t.setShadow b).bank id = t.bank id := by
  cases h : t.active <;> cases id <;> simp [TableStore.setShadow, TableStore.bank, h]

/-- R119: a change of the shadow bank changes no flow's profile. -/
theorem State.WindowLaws.setShadow {s : State} (h : s.WindowLaws) {b : Bank} (hb : b.ProfilesInRange) :
    ({ s with tables := s.tables.setShadow b } : State).WindowLaws where
  flows f := by
    have hp : (s.tables.setShadow b).profile f = s.profile f := by
      simp only [TableStore.profile, setShadow_active, State.profile]
    exact (congrArg (fun p : Profile => (s.flow f).Whole p.window) hp).mpr (h.flows f)
  profiles bank f := by
    rcases setShadow_bank s.tables b bank with e | e
    · exact (congrArg (fun b : Bank => (readAt b.profiles f).inRange = true) e).mpr (hb f)
    · exact (congrArg (fun b : Bank => (readAt b.profiles f).inRange = true) e).mpr (h.profiles bank f)

theorem State.WindowLaws.writeTableWork {s : State} (h : s.WindowLaws) (r : Request) :
    (writeTableWork r s).2.WindowLaws := by
  unfold Machine.writeTableWork
  simp only
  split
  · split
    · unfold writeShadow
      split
      · exact h
      · next hb => exact h.setShadow (writeEntries_inRange (fun f => h.profiles _ f) hb)
    · exact h
  · exact h

/-- R129: the structural check keeps the window of every flow that is not CLOSED. -/
theorem window_of_unchanged {s : State} {f : FlowId} (h : s.structureChanges f = false)
    (hs : (s.flow f).state ≠ .closed) :
    (readAt s.tables.shadowBank.profiles f).window = (s.profile f).window := by
  have hu : (readAt s.tables.shadowBank.profiles f).sameStructure (s.profile f) = true := by
    simpa [State.structureChanges, hs] using h
  simp only [Profile.sameStructure, Bool.and_eq_true, beq_iff_eq] at hu
  obtain ⟨⟨⟨⟨-, hw⟩, -⟩, -⟩, -⟩ := hu
  exact hw

/-- R128 to R130: the banks change places under flows whose windows stay. -/
theorem State.WindowLaws.commitBanks {s : State} (h : s.WindowLaws) (hc : s.firstStructureChange = none) :
    s.commitBanks.WindowLaws where
  flows f := by
    have hf : s.commitBanks.flow f = s.flow f := rfl
    have hp : s.commitBanks.profile f = readAt s.tables.shadowBank.profiles f := rfl
    rw [hf, hp]
    by_cases hs : (s.flow f).state = .closed
    · have hu : (s.flow f).inUse = false := by simp [Flow.inUse, hs]
      exact (Flow.whole_iff_atRest hu).2 ((h.flows f).atRest hu)
    · have hu : s.structureChanges f = false := by
        simpa using List.find?_eq_none.1 hc f (List.mem_finRange f)
      rw [window_of_unchanged hu hs]
      exact h.flows f
  profiles bank f := h.profiles bank f

theorem State.WindowLaws.commitWork {s : State} (h : s.WindowLaws) (r : Request) :
    (commitWork r s).2.WindowLaws := by
  unfold Machine.commitWork
  split
  · unfold commitBank
    split
    · exact h
    · split
      · exact h
      · split
        · exact h
        · next hc => exact h.commitBanks hc
  · exact h

/-! ### Flows and the partnership (R52, R57, R62, R64, R73, R86) -/

/-- R52. -/
theorem State.WindowLaws.flowOpenAt {s : State} (h : s.WindowLaws) (f : FlowId) (tag : Tag) :
    (flowOpenAt s f tag).2.WindowLaws := by
  unfold Machine.flowOpenAt
  split
  · exact h
  · split
    · exact h
    · next hs =>
      split
      · exact h
      · split
        · exact h
        · split
          · exact h
          · next u hu =>
            have hk := prepareOpening_some hu
            have hr := (h.flows f).atRest (by simp_all [Flow.inUse])
            obtain ⟨hrest, hfresh⟩ := Flow.reinitialised_atRest hr (s.profile f).rtoBase
            obtain ⟨-, -, -, -, -, -, -, -, -, -, -, hd, -⟩ := hrest
            have hw := Flow.opening_of_fresh hfresh hd (u.profile f).window (u.profile f).order 0
              (some ⟨.flowOpen, tag⟩) (s.profile f).window
            exact h.set (by simp [State.takeOpening, State.makeOpenPending, State.flow, hk]) hw

/-- R57. -/
theorem State.WindowLaws.flowCloseAt {s : State} (h : s.WindowLaws) (f : FlowId) (tag : Tag) :
    (flowCloseAt s f tag).2.WindowLaws := by
  unfold Machine.flowCloseAt
  split
  · next hs =>
    have hd : ((s.modifyFlow f fun fl =>
        { fl with drainOrigin := some .localEnd, deferred := some ⟨.flowClose, tag⟩ }).changeFlowState f
          .draining .request).WindowLaws :=
      h.set (by simp [State.flow]) ((h.flows f).draining hs .localEnd (some ⟨.flowClose, tag⟩))
    exact hd.completeDrain f
  all_goals exact h

/-- R62. -/
theorem State.WindowLaws.flowAbortAt {s : State} (h : s.WindowLaws) (f : FlowId) :
    (flowAbortAt s f).2.WindowLaws := by
  unfold Machine.flowAbortAt State.abortFlow
  simp only
  split
  · split
    · exact h.endFlow_owing f rfl (.inl rfl) _ _ _
    · exact h.endFlow_clearing f (.inl rfl) _ _ _
  · exact h

/-- R64. -/
theorem State.WindowLaws.flowResetAt {s : State} (h : s.WindowLaws) (f : FlowId) :
    (flowResetAt s f).2.WindowLaws := by
  unfold Machine.flowResetAt
  split
  · next hs =>
    obtain ⟨-, -, -, -, -, -, -, -, -, -, -, -, -, hp⟩ := (h.flows f).atRest (by simp [Flow.inUse, hs])
    exact h.endFlow f (.inl rfl) _ _ (fun _ => hp) _
  · exact h

theorem State.WindowLaws.joinAt {s : State} (h : s.WindowLaws) (tag : Tag) : (joinAt s tag).2.WindowLaws := by
  unfold Machine.joinAt
  split
  · simp only [State.startJoin]
    exact (State.WindowLaws.modifyPart (h.congr (drawEpoch_kept s)) _).changeLinkState .joining .request
  all_goals exact h

theorem State.WindowLaws.readCountersWork {s : State} (h : s.WindowLaws) (r : Request) :
    (readCountersWork r s).2.WindowLaws := by
  unfold Machine.readCountersWork
  simp only
  split
  · split
    · unfold readDeviceCounters
      simp only
      split
      · exact h.congr ⟨rfl, rfl⟩
      · exact h
    · split
      · unfold readFlowCounters
        simp only
        split
        · exact h.countFlow _ _
        · exact h
      · exact h
    · exact h
  · exact h

theorem State.WindowLaws.setParamsWork {s : State} (h : s.WindowLaws) (r : Request) :
    (setParamsWork r s).2.WindowLaws := by
  unfold Machine.setParamsWork setParamsWith
  simp only
  split
  · split
    · exact h
    · split
      · exact h
      · split
        · exact h
        · exact h.congr ⟨rfl, rfl⟩
  · exact h

theorem State.WindowLaws.setNoticesWork {s : State} (h : s.WindowLaws) (r : Request) :
    (setNoticesWork r s).2.WindowLaws := by
  unfold Machine.setNoticesWork
  simp only
  split
  · exact h.congr ⟨rfl, rfl⟩
  · exact h

/-- R165, R166. -/
theorem State.WindowLaws.executeRestart {s : State} (h : s.WindowLaws) (r : Request) :
    (s.executeRestart r).WindowLaws := by
  have hd := h.executeRequest r (work := restartWork) fun r u hu => hu.bodyless r (hu.congr ⟨rfl, rfl⟩)
  unfold State.executeRestart
  simp only
  split
  · exact hd.responseDeparted
  · exact hd

/-! ## Every command keeps the laws -/

@[simp] theorem retxExpired_state (fl : Flow) (p : Profile) : (fl.retxExpired p).state = fl.state := by
  obtain ⟨win, e, -⟩ := fl.loseOldest_eq
  unfold Flow.retxExpired
  rw [e]
  rfl

/-- R41: a running ack delay timer is that of a flow in OPEN, DRAINING or CLOSING. -/
theorem Flow.Whole.takesBlocks_of_ackTimer {fl : Flow} {w : Nat} (h : fl.Whole w)
    (ha : fl.ackTimer.hasRunOut = true) : fl.takesBlocks = true := by
  cases hst : fl.state with
  | opened | draining | closing => simp [Flow.takesBlocks, hst]
  | opening =>
    obtain ⟨-, -, -, -, -, -, -, -, hack, -⟩ := h.fresh hst
    simp [hack, Timer.hasRunOut] at ha
  | closed | failed =>
    obtain ⟨-, -, -, -, -, -, -, -, -, hack, -⟩ := h.atRest (by simp [Flow.inUse, hst])
    simp [hack, Timer.hasRunOut] at ha

/-- A happening that keeps the laws keeps them with what follows it. -/
theorem windowLaws_of_finish {s t : State} (e : (.next s.finish : Host.Outcome State Fault Refusal) = .next t)
    (h : s.WindowLaws) : t.WindowLaws := by
  cases e
  exact h.finish

theorem State.WindowLaws.execHelloReceived {s t : State} (h : s.WindowLaws)
    (e : execHelloReceived s = .next t) : t.WindowLaws := by
  unfold Machine.execHelloReceived at e
  split at e
  · exact windowLaws_of_finish e ((h.modifyLink _).helloAtPartnership _ _ _)
  · cases e; exact h

theorem State.WindowLaws.execKeepaliveReceived {s t : State} (h : s.WindowLaws)
    (e : execKeepaliveReceived s = .next t) : t.WindowLaws := by
  unfold Machine.execKeepaliveReceived at e
  split at e
  · exact windowLaws_of_finish e ((h.modifyLink _).ifAccepted ⟨rfl, rfl⟩ _ fun _ hv => hv)
  · cases e; exact h

theorem State.WindowLaws.execLeaveReceived {s t : State} (h : s.WindowLaws)
    (e : execLeaveReceived s = .next t) : t.WindowLaws := by
  unfold Machine.execLeaveReceived at e
  split at e
  · exact windowLaws_of_finish e ((h.modifyLink _).leaveAtPartnership _)
  · cases e; exact h

theorem State.WindowLaws.execOpenReceived {s t : State} (h : s.WindowLaws)
    (e : execOpenReceived s = .next t) : t.WindowLaws := by
  unfold Machine.execOpenReceived at e
  split at e
  · exact windowLaws_of_finish e (h.ifAccepted (dropFlowBlock_kept s) _ fun _ hv => hv.openAtFlow _ _ _)
  · cases e; exact h

theorem State.WindowLaws.execOpenAckReceived {s t : State} (h : s.WindowLaws)
    (e : execOpenAckReceived s = .next t) : t.WindowLaws := by
  unfold Machine.execOpenAckReceived at e
  split at e
  · exact windowLaws_of_finish e (h.ifAccepted (dropFlowBlock_kept s) _ fun _ hv => hv.openAckAtFlow _ _)
  · cases e; exact h

theorem State.WindowLaws.execCloseReceived {s t : State} (h : s.WindowLaws)
    (e : execCloseReceived s = .next t) : t.WindowLaws := by
  unfold Machine.execCloseReceived at e
  split at e
  · exact windowLaws_of_finish e (h.ifAccepted (dropFlowBlock_kept s) _ fun _ hv => hv.closeAtFlow _)
  · cases e; exact h

theorem State.WindowLaws.execCloseAckReceived {s t : State} (h : s.WindowLaws)
    (e : execCloseAckReceived s = .next t) : t.WindowLaws := by
  unfold Machine.execCloseAckReceived at e
  split at e
  · exact windowLaws_of_finish e (h.ifAccepted (dropFlowBlock_kept s) _ fun _ hv => hv.closeAckAtFlow _)
  · cases e; exact h

theorem State.WindowLaws.execAbortReceived {s t : State} (h : s.WindowLaws)
    (e : execAbortReceived s = .next t) : t.WindowLaws := by
  unfold Machine.execAbortReceived at e
  split at e
  · exact windowLaws_of_finish e (h.ifAccepted (dropFlowBlock_kept s) _ fun _ hv => hv.abortAtFlow _)
  · cases e; exact h

theorem State.WindowLaws.execDataReceived {s t : State} (h : s.WindowLaws)
    (e : execDataReceived s = .next t) : t.WindowLaws := by
  unfold Machine.execDataReceived at e
  split at e
  · exact windowLaws_of_finish e (h.ifAccepted (dropFlowBlock_kept s) _ fun _ hv => hv.dataAtFlow _ _ _)
  · cases e; exact h

theorem State.WindowLaws.execAdvanceReceived {s t : State} (h : s.WindowLaws)
    (e : execAdvanceReceived s = .next t) : t.WindowLaws := by
  unfold Machine.execAdvanceReceived at e
  split at e
  · exact windowLaws_of_finish e (h.ifAccepted (dropFlowBlock_kept s) _ fun _ hv => hv.advanceAtFlow _ _)
  · cases e; exact h

theorem State.WindowLaws.execStatusReceived {s t : State} (h : s.WindowLaws)
    (e : execStatusReceived s = .next t) : t.WindowLaws := by
  unfold Machine.execStatusReceived at e
  split at e
  · exact windowLaws_of_finish e (h.ifAccepted (dropFlowBlock_kept s) _ fun _ hv => hv.statusAtFlow _ _ _ _)
  · cases e; exact h

theorem State.WindowLaws.execBulkReceived {s t : State} (h : s.WindowLaws)
    (e : execBulkReceived s = .next t) : t.WindowLaws := by
  unfold Machine.execBulkReceived at e
  split at e
  · exact windowLaws_of_finish e ((h.modifyLink _).ifAccepted ⟨rfl, rfl⟩ _ fun v hv =>
      hv.congr (bulkAtPath_kept v _ _))
  · cases e; exact h

theorem State.WindowLaws.execDataGrant {s t : State} (h : s.WindowLaws)
    (e : execDataGrant s = .next t) : t.WindowLaws := by
  unfold Machine.execDataGrant at e
  split at e
  · exact windowLaws_of_finish e ((h.modifyLink _).dataGrantAt _ _)
  · cases e; exact h

theorem State.WindowLaws.execStatusGrant {s t : State} (h : s.WindowLaws)
    (e : execStatusGrant s = .next t) : t.WindowLaws := by
  unfold Machine.execStatusGrant at e
  split at e
  · exact windowLaws_of_finish e ((h.modifyLink _).statusGrantAt _)
  · cases e; exact h

theorem State.WindowLaws.execLifecycleGrant {s t : State} (h : s.WindowLaws)
    (e : execLifecycleGrant s = .next t) : t.WindowLaws := by
  unfold Machine.execLifecycleGrant at e
  split at e
  · exact windowLaws_of_finish e ((h.modifyLink _).lifecycleGrantAt _)
  · cases e; exact h

theorem State.WindowLaws.execPartnershipGrant {s t : State} (h : s.WindowLaws)
    (e : execPartnershipGrant s = .next t) : t.WindowLaws := by
  unfold Machine.execPartnershipGrant at e
  split at e
  · exact windowLaws_of_finish e ((h.modifyLink _).partnershipGrantAt)
  · cases e; exact h

theorem State.WindowLaws.execBulkGrant {s t : State} (h : s.WindowLaws)
    (e : execBulkGrant s = .next t) : t.WindowLaws := by
  unfold Machine.execBulkGrant at e
  split at e
  · exact windowLaws_of_finish e ((h.modifyLink _).bulkGrantAt)
  · cases e; exact h

theorem State.WindowLaws.execLinkTransmissionEnd {s t : State} (h : s.WindowLaws)
    (e : execLinkTransmissionEnd s = .next t) : t.WindowLaws := by
  unfold Machine.execLinkTransmissionEnd at e
  split at e
  · exact windowLaws_of_finish e ((h.modifyLink _).linkEnd _)
  · cases e; exact h
  · cases e; exact h

theorem State.WindowLaws.execWireTransmissionEnd {s t : State} (h : s.WindowLaws)
    (e : execWireTransmissionEnd s = .next t) : t.WindowLaws := by
  unfold Machine.execWireTransmissionEnd at e
  split at e
  · exact windowLaws_of_finish e ((h.wireEnd _).modifyWire _)
  · cases e; exact h

theorem State.WindowLaws.execRetransmissionTimerExpiry {s t : State} (h : s.WindowLaws) (f : FlowId)
    (e : execRetransmissionTimerExpiry f s = .next t) : t.WindowLaws := by
  unfold Machine.execRetransmissionTimerExpiry at e
  simp only at e
  split at e
  · next hc =>
    have ht : (s.flow f).takesBlocks = true := (s.flow f).takesBlocks_iff.2 (by tauto)
    have hn : (s.flow f).state ≠ .closing := by rcases hc.1 with hs | hs <;> simp [hs]
    exact windowLaws_of_finish e (h.modifyTraffic ht (retxExpired_state _ _) fun _ _ _ hf => hf.retxExpired hn _)
  · cases e; exact h

theorem State.WindowLaws.execCloseSeriesExpiry {s t : State} (h : s.WindowLaws) (f : FlowId)
    (e : execCloseSeriesExpiry f s = .next t) : t.WindowLaws := by
  unfold Machine.execCloseSeriesExpiry at e
  simp only at e
  split at e
  · next hc => exact windowLaws_of_finish e (h.closeSeriesExpired hc.1)
  · cases e; exact h

theorem State.WindowLaws.execOpenTimerExpiry {s t : State} (h : s.WindowLaws) (f : FlowId)
    (e : execOpenTimerExpiry f s = .next t) : t.WindowLaws := by
  unfold Machine.execOpenTimerExpiry at e
  split at e
  · next hc => exact windowLaws_of_finish e (h.openTimerExpired hc.1)
  · cases e; exact h

theorem State.WindowLaws.execAckDelayTimerExpiry {s t : State} (h : s.WindowLaws) (f : FlowId)
    (e : execAckDelayTimerExpiry f s = .next t) : t.WindowLaws := by
  unfold Machine.execAckDelayTimerExpiry at e
  simp only at e
  split at e
  · next hc =>
    have ht := (h.flows f).takesBlocks_of_ackTimer hc.2
    exact windowLaws_of_finish e (h.modifyTraffic ht rfl fun _ _ _ hf => { hf with })
  · cases e; exact h

theorem State.WindowLaws.execJoinTimerExpiry {s t : State} (h : s.WindowLaws)
    (e : execJoinTimerExpiry s = .next t) : t.WindowLaws := by
  unfold Machine.execJoinTimerExpiry at e
  split at e
  · exact windowLaws_of_finish e (h.joinExpired)
  · cases e; exact h

theorem State.WindowLaws.execHelloTimerExpiry {s t : State} (h : s.WindowLaws)
    (e : execHelloTimerExpiry s = .next t) : t.WindowLaws := by
  unfold Machine.execHelloTimerExpiry at e
  split at e
  · exact windowLaws_of_finish e (h.modifyPart _)
  · cases e; exact h

theorem State.WindowLaws.execSilenceTimerExpiry {s t : State} (h : s.WindowLaws)
    (e : execSilenceTimerExpiry s = .next t) : t.WindowLaws := by
  unfold Machine.execSilenceTimerExpiry at e
  split at e
  · exact windowLaws_of_finish e (h.silenceExpired)
  · cases e; exact h

theorem State.WindowLaws.execKeepaliveTimerExpiry {s t : State} (h : s.WindowLaws)
    (e : execKeepaliveTimerExpiry s = .next t) : t.WindowLaws := by
  unfold Machine.execKeepaliveTimerExpiry at e
  split at e
  · exact windowLaws_of_finish e (h.modifyPart _)
  · cases e; exact h

theorem State.WindowLaws.execHoldTimerExpiry {s t : State} (h : s.WindowLaws)
    (e : execHoldTimerExpiry s = .next t) : t.WindowLaws := by
  unfold Machine.execHoldTimerExpiry at e
  split at e
  · exact windowLaws_of_finish e (h.holdExpired)
  · cases e; exact h

theorem State.WindowLaws.execLeaseTimerExpiry {s t : State} (h : s.WindowLaws)
    (e : execLeaseTimerExpiry s = .next t) : t.WindowLaws := by
  unfold Machine.execLeaseTimerExpiry at e
  split at e
  · exact windowLaws_of_finish e (h.modifyEngine _)
  · cases e; exact h

theorem State.WindowLaws.execRestart {s t : State} (h : s.WindowLaws)
    (e : execRestart s = .next t) : t.WindowLaws := by
  unfold Machine.execRestart at e
  split at e
  · cases e; exact h
  · split at e
    · exact windowLaws_of_finish e (State.WindowLaws.executeRestart (s := s.begin _) (h.congr ⟨rfl, rfl⟩) _)
    · cases e; exact h

theorem exec_keeps_windowLaws {c : Instr} {s t : State} (h : s.WindowLaws) (e : exec c s = .next t) :
    t.WindowLaws := by
  cases c with
  | powerOnReset => cases e; exact powerOn_windowLaws _ _ _
  | wireFrameReception received bad => exact windowLaws_of_finish e (h.receiveFrame received bad)
  | linkBlockDelivery received bad => exact windowLaws_of_finish e (h.congr (deliverBlock_kept s received bad))
  | slotSignalled => exact windowLaws_of_finish e (h.modifyLink _)
  | slotWithdrawn => exact windowLaws_of_finish e (h.modifyLink _)
  | wiredLinkUp => exact windowLaws_of_finish e (h.modifyWire _)
  | wiredLinkDown => exact windowLaws_of_finish e h.wireDown
  | helloReceived => exact h.execHelloReceived e
  | keepaliveReceived => exact h.execKeepaliveReceived e
  | leaveReceived => exact h.execLeaveReceived e
  | openReceived => exact h.execOpenReceived e
  | openAckReceived => exact h.execOpenAckReceived e
  | closeReceived => exact h.execCloseReceived e
  | closeAckReceived => exact h.execCloseAckReceived e
  | abortReceived => exact h.execAbortReceived e
  | dataReceived => exact h.execDataReceived e
  | advanceReceived => exact h.execAdvanceReceived e
  | statusReceived => exact h.execStatusReceived e
  | bulkReceived => exact h.execBulkReceived e
  | dataGrant => exact h.execDataGrant e
  | statusGrant => exact h.execStatusGrant e
  | lifecycleGrant => exact h.execLifecycleGrant e
  | partnershipGrant => exact h.execPartnershipGrant e
  | bulkGrant => exact h.execBulkGrant e
  | linkTransmissionEnd => exact h.execLinkTransmissionEnd e
  | wireTransmissionEnd => exact h.execWireTransmissionEnd e
  | retransmissionTimerExpiry f => exact h.execRetransmissionTimerExpiry f e
  | closeSeriesExpiry f => exact h.execCloseSeriesExpiry f e
  | openTimerExpiry f => exact h.execOpenTimerExpiry f e
  | ackDelayTimerExpiry f => exact h.execAckDelayTimerExpiry f e
  | joinTimerExpiry => exact h.execJoinTimerExpiry e
  | helloTimerExpiry => exact h.execHelloTimerExpiry e
  | silenceTimerExpiry => exact h.execSilenceTimerExpiry e
  | keepaliveTimerExpiry => exact h.execKeepaliveTimerExpiry e
  | holdTimerExpiry => exact h.execHoldTimerExpiry e
  | leaseTimerExpiry => exact h.execLeaseTimerExpiry e
  | restart => exact h.execRestart e
  | identify =>
    exact h.execute (named := (· == codeIdentify)) (work := identifyWork) e
      fun r u hu => hu.bodyless r hu
  | bind =>
    exact h.execute (named := (· == codeBind)) (work := bindWork) e
      fun r u hu => hu.bindWork r
  | unbind =>
    exact h.execute (named := (· == codeUnbind)) (work := unbindWork) e
      fun r u hu => hu.bodyless r (hu.congr ⟨rfl, rfl⟩)
  | readTable =>
    exact h.execute (named := (· == codeReadTable)) (work := readTableWork) e
      fun r u hu => hu.readTableWork r
  | writeTable =>
    exact h.execute (named := (· == codeWriteTable)) (work := writeTableWork) e
      fun r u hu => hu.writeTableWork r
  | copyBank =>
    exact h.execute (named := (· == codeCopyBank)) (work := copyBankWork) e
      fun r u hu => hu.bodyless r (hu.setShadow fun f => hu.profiles _ f)
  | commit =>
    exact h.execute (named := (· == codeCommit)) (work := commitWork) e
      fun r u hu => hu.commitWork r
  | flowOpen =>
    exact h.execute (named := (· == codeFlowOpen)) (work := flowOpenWork) e
      fun r u hu => hu.withFlow r fun f => hu.flowOpenAt f _
  | flowClose =>
    exact h.execute (named := (· == codeFlowClose)) (work := flowCloseWork) e
      fun r u hu => hu.withFlow r fun f => hu.flowCloseAt f _
  | flowAbort =>
    exact h.execute (named := (· == codeFlowAbort)) (work := flowAbortWork) e
      fun r u hu => hu.withFlow r fun f => hu.flowAbortAt f
  | flowReset =>
    exact h.execute (named := (· == codeFlowReset)) (work := flowResetWork) e
      fun r u hu => hu.withFlow r fun f => hu.flowResetAt f
  | flowStatus =>
    exact h.execute (named := (· == codeFlowStatus)) (work := flowStatusWork) e
      fun r u hu => hu.withFlow r fun f => hu
  | linkJoin =>
    exact h.execute (named := (· == codeLinkJoin)) (work := linkJoinWork) e
      fun r u hu => hu.bodyless r (hu.joinAt _)
  | linkLeave =>
    refine h.execute (named := (· == codeLinkLeave)) (work := linkLeaveWork) e fun r u hu => hu.bodyless r ?_
    simp only
    split
    · exact hu
    · exact hu.localLeave
  | linkStatus =>
    exact h.execute (named := (· == codeLinkStatus)) (work := linkStatusWork) e
      fun r u hu => hu.bodyless r hu
  | readCounters =>
    exact h.execute (named := (· == codeReadCounters)) (work := readCountersWork) e
      fun r u hu => hu.readCountersWork r
  | setParams =>
    exact h.execute (named := (· == codeSetParams)) (work := setParamsWork) e
      fun r u hu => hu.setParamsWork r
  | readParams =>
    exact h.execute (named := (· == codeReadParams)) (work := readParamsWork) e
      fun r u hu => hu.bodyless r hu
  | setNotices =>
    exact h.execute (named := (· == codeSetNotices)) (work := setNoticesWork) e
      fun r u hu => hu.setNoticesWork r
  | unknownRequest =>
    exact h.execute (named := fun code => !requestCodes.contains code)
      (work := fun _ s => (.plain .badRequest, s)) e fun r u hu => hu

/-- R4, R6, R16, R27, R51: a step keeps the window laws. -/
theorem step_keeps_windowLaws {s t : State} (h : s.WindowLaws) (e : step s = .next t) : t.WindowLaws := by
  unfold step at e
  split at e
  · cases e; exact h.tick
  · next c rest _ => exact exec_keeps_windowLaws (s := s.withPending rest) (h.congr ⟨rfl, rfl⟩) e

end Sys2Proof.Machine
section
open Sys2Proof Sys2Proof.Machine

/-- Settles O10: the laws are kept by the passage of time and by each command. -/
theorem windowLawsKept : Obligations.WindowLawsKept := fun _ _ => step_keeps_windowLaws

end

namespace Sys2Proof.Machine

/-! ## Timers (log entries 6 and 9) -/

@[simp] theorem hasRunOut_running_zero : (Timer.running 0).hasRunOut = true := rfl

@[simp] theorem hasRunOut_running_succ (n : Nat) : (Timer.running (n + 1)).hasRunOut = false := rfl

/-- R50, R135: a block that becomes pending, in the terms of Safety.lean. -/
theorem makePending_queued (s : State) (f : FlowId) (b : LifecycleBlock) :
    s.makePending f b = { s with
      flows := writeAt s.flows f { s.flow f with pendingBlock := some b }, link := s.link.queued f } := rfl

/-- R50: a block that becomes pending at a flow that has just changed. -/
theorem modifyFlow_makePending (s : State) (f : FlowId) (g : Flow → Flow) (b : LifecycleBlock) :
    (s.modifyFlow f g).makePending f b = { s with
      flows := writeAt s.flows f { g (s.flow f) with pendingBlock := some b }, link := s.link.queued f } := by
  rw [makePending_queued, flow_modifyFlow_same, modifyFlow_flows, writeAt_writeAt]
  rfl

/-- R53: the open timer's running out below four attempts. -/
theorem execOpenTimerExpiry_again {s : State} {f : FlowId} (hs : (s.flow f).state = .opening)
    (ht : (s.flow f).openTimer = .running 0) (ha : (s.flow f).attempts < 4) :
    execOpenTimerExpiry f s = .next ((s.modifyFlow f fun fl => { fl with openTimer := .stopped }).makePending f
      (.openFlow (s.profile f).window (s.profile f).order)).finish := by
  rw [execOpenTimerExpiry, if_pos ⟨hs, by simp [ht]⟩, State.openTimerExpired, if_pos ha]
  rfl

/-- R59: the retransmission timer's running out in CLOSING, below the limit. -/
theorem execCloseSeriesExpiry_again {s : State} {f : FlowId} (hc : (s.flow f).state = .closing)
    (hs : (s.flow f).suspended = false) (ht : (s.flow f).retxTimer = .running 0)
    (ha : (s.flow f).attempts < 1 + (s.profile f).retryLimit) :
    execCloseSeriesExpiry f s = .next ((s.modifyFlow f fun fl =>
      { fl with rto := doubledRto (s.profile f) fl.rto, retxTimer := .stopped }).makePending f .close).finish := by
  simp only [execCloseSeriesExpiry]
  rw [if_pos ⟨hc, hs, by simp [ht]⟩, State.closeSeriesExpired, if_pos ha]

end Sys2Proof.Machine

section
open Sys2Proof Sys2Proof.Machine

/-- Settles O2: a step with no command waiting is the tick of each flow, of the partnership and of the binding. -/
theorem emptyQueueTick : Obligations.EmptyQueueTick := by
  intro s hp
  have hf : ∀ f, s.tick.flow f = (s.flow f).tick := fun f => by simp [State.tick, State.flow]
  refine ⟨s.tick, step_of_empty hp, fun f hs => ?_, fun f hs => ?_, rfl, rfl, ?_⟩
  · rw [hf, Flow.tick, if_neg (by simp [hs])]
  · rw [hf, Flow.tick, if_pos hs]
  · constructor <;> simp [State.tick]

/-- Settles O40: an expiry whose timer has run out is its own effect, and any other is none. -/
theorem timersThatOweABlock : Obligations.TimersThatOweABlock := by
  refine ⟨fun s f => ⟨?_, ?_, ?_, ?_, ?_⟩, fun s f left => ⟨?_, ?_, ?_, ?_, ?_, ?_, ?_, ?_, ?_⟩⟩
  · intro hs ht
    simp [exec, execAckDelayTimerExpiry, hs, ht, State.modifyFlow]
  · intro hs ht ha
    rw [exec, execOpenTimerExpiry_again hs ht ha, modifyFlow_makePending]
  · intro hc hs ht ha
    rw [exec, execCloseSeriesExpiry_again hc hs ht ha, modifyFlow_makePending]
    rfl
  · intro ht
    simp [exec, execHelloTimerExpiry, ht, State.modifyPart]
  · intro hs ht
    simp [exec, execKeepaliveTimerExpiry, hs, ht, State.modifyPart]
  · rintro (ht | hs)
    · simp [exec, execRetransmissionTimerExpiry, execCloseSeriesExpiry, ht]
    · simp [exec, execRetransmissionTimerExpiry, execCloseSeriesExpiry, hs]
  · rintro (ht | hs)
    · simp [exec, execAckDelayTimerExpiry, ht]
    · simp [exec, execAckDelayTimerExpiry, hs]
  · intro ht; simp [exec, execOpenTimerExpiry, ht]
  · intro ht; simp [exec, execJoinTimerExpiry, ht]
  · intro ht; simp [exec, execHelloTimerExpiry, ht]
  · intro ht; simp [exec, execSilenceTimerExpiry, ht]
  · intro ht; simp [exec, execKeepaliveTimerExpiry, ht]
  · intro ht; simp [exec, execHoldTimerExpiry, ht]
  · intro manager origin lease hb; simp [exec, execLeaseTimerExpiry, hb, Binding.leaseOver]

end

namespace Sys2Proof.Machine

/-! ## The retransmission timer (R17, R18) -/

/-- R18 step 1: the first sequence of the list that is in flight is that of the oldest entry in flight. -/
theorem oldestInFlight_eq {fl : Flow} {older newer : List Seq} {e : WindowEntry}
    (ho : fl.txOrder = older ++ e.seq :: newer)
    (hn : ∀ x ∈ fl.window, x.seq ∈ older → x.inFlight = false) (he : e ∈ fl.window)
    (hf : e.inFlight = true) : fl.oldestInFlight = some e.seq := by
  unfold Flow.oldestInFlight
  rw [ho]
  refine find?_first (List.any_eq_true.2 ⟨e, he, by simp [hf]⟩) fun y hy => ?_
  rw [List.any_eq_false]
  intro x hx hxy
  simp only [Bool.and_eq_true, beq_iff_eq] at hxy
  simp [hn x hx (hxy.1 ▸ hy)] at hxy

/-- R18: what the timer's running out does to a flow, by its oldest entry in flight. -/
theorem retxExpired_eq {fl : Flow} (p : Profile) {older newer : List Seq} {e : WindowEntry}
    (ho : fl.txOrder = older ++ e.seq :: newer)
    (hn : ∀ x ∈ fl.window, x.seq ∈ older → x.inFlight = false) (he : e ∈ fl.window)
    (hf : e.inFlight = true) (hu : ∀ x ∈ fl.window, x.seq = e.seq → x = e) :
    fl.retxExpired p = { fl with
      window := fl.window.map fun x => if x.seq = e.seq then e.lose else x
      rto := doubledRto p fl.rto
      retxTimer := if fl.window.any (fun x => x.seq ≠ e.seq && x.inFlight) then
        .running (doubledRto p fl.rto) else .stopped } := by
  have hl : fl.loseOldest = { fl with
      window := fl.window.map fun x => if x.seq = e.seq then e.lose else x } := by
    rw [Flow.loseOldest, oldestInFlight_eq ho hn he hf]
    refine congrArg (fun w => ({ fl with window := w } : Flow)) (List.map_congr_left fun x hx => ?_)
    split
    · next hq => rw [hu x hx hq]
    · rfl
  have hany : (fl.window.map fun x => if x.seq = e.seq then e.lose else x).any (·.inFlight) =
      fl.window.any fun x => x.seq ≠ e.seq && x.inFlight := by
    rw [List.any_map]
    congr 1
    funext x
    by_cases hq : x.seq = e.seq <;> simp [hq]
  unfold Flow.retxExpired
  rw [hl]
  simp only [Flow.restartRetx, Flow.anyInFlight, hany]

end Sys2Proof.Machine

section
open Sys2Proof Sys2Proof.Machine

/-- Settles O36: the first entry of the list that is in flight is the one that the timer marks lost. -/
theorem retransmissionTimerExpires : Obligations.RetransmissionTimerExpires := by
  intro s f older newer q e hs hsus ht ho hn he hq hf hu
  subst hq
  have hlost : e.lose = { e with condition := match e.condition with
      | .outstanding frame => .pendingRetx frame
      | .skipped _ => .skipped .due
      | .sacked frame => .sacked frame
      | .pendingRetx frame => .pendingRetx frame } := by
    obtain ⟨sq, c, n⟩ := e
    rcases c with _ | _ | _ | a
    case skipped => cases a <;> rfl
    all_goals rfl
  simp only [exec, execRetransmissionTimerExpiry]
  rw [if_pos ⟨hs, hsus, by simp [ht]⟩, State.modifyFlow, retxExpired_eq _ ho hn he hf hu, hlost]
  rfl

end

namespace Sys2Proof.Machine

/-! ## The scheduler's search (R134 to R138) -/

/-- The first index of a fixed table that meets a test. -/
theorem find?_finRange_eq_some_iff {n : Nat} {p : Fin n → Bool} {i : Fin n} :
    (List.finRange n).find? p = some i ↔ p i = true ∧ ∀ j, j < i → p j = false := by
  rw [List.find?_eq_some_iff_getElem]
  constructor
  · rintro ⟨hp, k, hk, e, hl⟩
    refine ⟨hp, fun j hj => ?_⟩
    rw [← e, List.getElem_finRange] at hj
    simpa using hl j.val hj
  · rintro ⟨hp, hl⟩
    exact ⟨hp, i.val, by simp, by simp, fun j hj => by simpa using hl ⟨j, by omega⟩ hj⟩

/-- R136, R137: the search finds the flow that comes first upward from a position. -/
theorem searchFrom_find?_eq_some {pos f : FlowId} {p : FlowId → Bool} (h : (searchFrom pos).find? p = some f) :
    p f = true ∧ ∀ k : FlowId, k - pos < f - pos → p k = false := by
  rw [searchFrom, List.find?_map, Option.map_eq_some_iff] at h
  obtain ⟨i, hi, rfl⟩ := h
  obtain ⟨hp, hl⟩ := find?_finRange_eq_some_iff.1 hi
  refine ⟨hp, fun k hk => ?_⟩
  rw [add_sub_cancel_left] at hk
  have := hl _ hk
  rwa [Function.comp_apply, add_sub_cancel] at this

theorem searchFrom_find?_eq_none_iff {pos : FlowId} {p : FlowId → Bool} :
    (searchFrom pos).find? p = none ↔ ∀ f, p f = false := by
  rw [List.find?_eq_none]
  constructor
  · intro h f
    simpa using h f (List.mem_map.2 ⟨f - pos, List.mem_finRange _, add_sub_cancel _ _⟩)
  · intro h f _
    simp [h f]

theorem statusOffer_eq_none_iff (s : State) :
    s.statusOffer = none ↔ ∀ f, (s.flow f).offersStatus = false := searchFrom_find?_eq_none_iff

theorem dataOfferIn_eq_none_iff (s : State) (cls : PortClass) :
    s.dataOfferIn cls = none ↔ ∀ f, (s.profile f).linkClass = cls → s.offersData f = false := by
  unfold State.dataOfferIn
  rw [searchFrom_find?_eq_none_iff]
  simp

theorem class_listed (c : PortClass) : c ∈ [(3 : PortClass), 2, 1, 0] := by fin_cases c <;> simp

/-- R137: the data category offers the flow found in the highest class in which one is found. -/
theorem dataOffer_eq_some {s : State} {f : FlowId} {cls : PortClass} (h : s.dataOffer = some (f, cls)) :
    s.dataOfferIn cls = some f ∧ ∀ c, cls < c → s.dataOfferIn c = none := by
  obtain ⟨higher, c, lower, hl, hc, hn⟩ := List.findSome?_eq_some_iff.1 h
  obtain ⟨g, hg, e⟩ := Option.map_eq_some_iff.1 hc
  cases e
  have hdown : (higher ++ cls :: lower).Pairwise (· > ·) := hl ▸ (by decide)
  rw [List.pairwise_append, List.pairwise_cons] at hdown
  obtain ⟨-, ⟨hlow, -⟩, -⟩ := hdown
  refine ⟨hg, fun c hlt => ?_⟩
  have hm := hl ▸ class_listed c
  rcases List.mem_append.1 hm with hm | hm
  · simpa using hn c hm
  · rcases List.mem_cons.1 hm with rfl | hm
    · exact absurd hlt (lt_irrefl _)
    · exact absurd hlt (lt_asymm (hlow c hm))

theorem dataOffer_eq_none_iff (s : State) : s.dataOffer = none ↔ ∀ f, s.offersData f = false := by
  unfold State.dataOffer
  rw [List.findSome?_eq_none_iff]
  simp only [Option.map_eq_none_iff, dataOfferIn_eq_none_iff]
  exact ⟨fun h f => h _ (class_listed _) f rfl, fun h _ _ f _ => h f⟩

/-- R135: the lifecycle category offers the first flow of the order that owes a block freely. -/
theorem lifecycleOffer_eq_some_iff (s : State) (f : FlowId) :
    s.lifecycleOffer = some f ↔ ∃ before after, s.link.lifecycleOrder = before ++ f :: after ∧
      (s.flow f).OwesFreely ∧ ∀ k ∈ before, ¬ (s.flow k).OwesFreely := by
  simp only [State.lifecycleOffer, List.find?_eq_some_iff_append, ← offersLifecycle_iff]
  constructor
  · rintro ⟨hf, before, after, hl, hb⟩
    exact ⟨before, after, hl, hf, fun k hk => by simpa using hb k hk⟩
  · rintro ⟨before, after, hl, hf, hb⟩
    exact ⟨hf, before, after, hl, fun k hk => by simpa using hb k hk⟩

theorem lifecycleOffer_eq_none_iff (s : State) :
    s.lifecycleOffer = none ↔ ∀ k ∈ s.link.lifecycleOrder, ¬ (s.flow k).OwesFreely := by
  simp [State.lifecycleOffer, List.find?_eq_none, ← offersLifecycle_iff]

/-- R74, R134: what the partnership category offers. -/
theorem partnership_offers_iff (p : Partnership) :
    p.offers = true ↔ p.leavePending ≠ none ∨
      (p.ownEpoch ≠ none ∧ ((p.helloPending = true ∧ p.state ≠ .silent) ∨
        (p.keepalivePending = true ∧ p.state = .partnered))) := by
  simp only [Partnership.offers, Partnership.offersHello, Partnership.offersKeepalive, Bool.or_eq_true,
    Bool.and_eq_true, bne_iff_ne, beq_iff_eq, Option.isSome_iff_ne_none]
  tauto

/-- R42. -/
theorem offersStatus_iff (fl : Flow) :
    fl.offersStatus = true ↔ fl.statusPending = true ∧ fl.suspended = false ∧
      (fl.state = .opened ∨ fl.state = .draining ∨ fl.state = .closing) := by
  simp only [Flow.offersStatus, Bool.and_eq_true, Bool.not_eq_true', Flow.takesBlocks_iff]
  tauto

/-- R7. -/
theorem offersData_iff (s : State) (f : FlowId) :
    s.offersData f = true ↔ (s.flow f).suspended = false ∧
      ((s.flow f).state = .opened ∨ (s.flow f).state = .draining) ∧
      ((∃ e ∈ (s.flow f).window, e.IsDue) ∨
        ((s.flow f).sendQueue ≠ [] ∧ (s.flow f).window.length < (s.profile f).window)) := by
  have hdue : (s.flow f).firstDue.isSome = true ↔ ∃ e ∈ (s.flow f).window, e.IsDue := by
    rw [Option.isSome_iff_ne_none, ne_eq, firstDue_eq_none_iff]
    push Not
    rfl
  simp only [State.offersData, Flow.offersData, Bool.and_eq_true, Bool.or_eq_true, beq_iff_eq,
    Bool.not_eq_true', List.isEmpty_eq_false_iff, decide_eq_true_iff, hdue]
  rw [and_assoc]
  exact and_left_comm

theorem offersBulk_iff (s : State) :
    s.offersBulk = true ↔ s.engine.linkReply ≠ [] ∨ s.link.bulkQueue ≠ [] := by
  simp [State.offersBulk]

/-! ## The selection (R133, R134, R138) -/

/-- R133: an open slot with no grant in transit is selected for. -/
theorem select_grant {s : State} (ht : s.link.transmitter = .slotOpen) (hg : s.link.grant = none) :
    s.select.link.grant = s.selection := by
  simp [State.select, ht, hg]

/-- R134: while the partnership offers nothing and is PARTNERED, the categories 2 to 5 are examined. -/
theorem selection_of_partnered {s : State} (ho : s.part.offers = false) (hp : s.part.state = .partnered)
    (he : s.part.ownEpoch.isSome = true) :
    s.selection = match s.lifecycleOffer with
      | some f => some (.lifecycle f)
      | none =>
        match s.statusOffer with
        | some f => some (.status f)
        | none => s.dataOrBulk := by
  obtain ⟨epoch, he⟩ := Option.isSome_iff_exists.1 he
  simp only [State.selection, ho, State.carrierEpoch, hp, he]
  rfl

end Sys2Proof.Machine

section
open Sys2Proof Sys2Proof.Machine

/-- Settles O24: the selection by category, then what each category offers. -/
theorem selectionOrder : Obligations.SelectionOrder := by
  refine ⟨fun s ht hg => ?_, ⟨fun s f h => searchFrom_find?_eq_some h, fun s f cls h => ?_⟩,
    partnership_offers_iff, fun s => ⟨lifecycleOffer_eq_some_iff s, lifecycleOffer_eq_none_iff s,
      statusOffer_eq_none_iff s, dataOffer_eq_none_iff s, offersBulk_iff s, fun f =>
        ⟨offersStatus_iff _, offersData_iff s f⟩⟩⟩
  · rw [select_grant ht hg]
    refine ⟨fun ho => ?_, fun ho hp => ?_, fun ho hp he => ?_⟩
    · simp [State.selection, ho]
    · simp [State.selection, ho, State.carrierEpoch, hp]
    · rw [selection_of_partnered ho hp he]
      refine ⟨fun f hl => ?_, fun f hl hs => ?_, fun f cls hl hs hd => ?_, fun hl hs hd => ?_⟩
      · simp [hl]
      · simp [hl, hs]
      · simp [hl, hs, hd, State.dataOrBulk]
      · simp [hl, hs, hd, State.dataOrBulk]
  · obtain ⟨hin, hhigher⟩ := dataOffer_eq_some h
    obtain ⟨hf, hfirst⟩ := searchFrom_find?_eq_some hin
    simp only [Bool.and_eq_true, beq_iff_eq] at hf
    refine ⟨hf.2, hf.1, fun k hk => ?_, fun k hk hlt => ?_⟩
    · by_contra hc
      have := (dataOfferIn_eq_none_iff s _).1 (hhigher _ (not_le.1 hc)) k rfl
      rw [hk] at this
      cases this
    · simpa [hk] using hfirst k hlt

end

namespace Sys2Proof.Machine

/-! ## Data grants (R8, R9, R20) -/

theorem startIfStopped_eq (t : Timer) (d : Nat) :
    t.startIfStopped d = if t = .stopped then .running d else t := by
  cases t <;> simp [Timer.startIfStopped]

/-- R8, R139: a data grant reaches its flow with the grant no longer in transit. -/
theorem execDataGrant_eq {s : State} {f : FlowId} {cls : PortClass} (hg : s.link.grant = some (.data f cls)) :
    exec .dataGrant s = .next (s.declined.dataGrantAt f cls).finish := by
  simp only [exec, execDataGrant, hg]
  rfl

theorem carrierEpoch_of_partnered {s : State} {epoch : Epoch} (hp : s.part.state = .partnered)
    (he : s.part.ownEpoch = some epoch) : s.declined.carrierEpoch = some epoch := by
  simp [State.carrierEpoch, State.declined, hp, he]

/-- R8: the state that a data grant finds offering data. -/
structure State.DataGranted (s : State) (f : FlowId) (cls : PortClass) (epoch : Epoch) : Prop where
  grant : s.link.grant = some (.data f cls)
  partnered : s.part.state = .partnered
  epoch : s.part.ownEpoch = some epoch
  state : (s.flow f).state = .opened ∨ (s.flow f).state = .draining
  running : (s.flow f).suspended = false

/-- R8: with a due entry the grant serves it. -/
theorem dataGrantAt_due {s : State} {f : FlowId} {cls : PortClass} {epoch : Epoch}
    (h : s.DataGranted f cls epoch) {older newer : List WindowEntry} {e : WindowEntry}
    (hs : (s.flow f).ServesFirst older e newer) :
    s.declined.dataGrantAt f cls = s.declined.serveDue f cls epoch e := by
  have hdue : (s.declined.flow f).firstDue = some e := firstDue_of_servesFirst hs
  have ho : s.declined.offersData f = true := (offersData_iff _ _).2 ⟨h.running, h.state,
    .inl ⟨e, List.mem_of_find?_eq_some hdue, hs.due⟩⟩
  simp only [State.dataGrantAt, carrierEpoch_of_partnered h.partnered h.epoch, ho, State.serveData, hdue,
    if_true]

/-- R8, R9: with no due entry the grant takes new data. -/
theorem dataGrantAt_new {s : State} {f : FlowId} {cls : PortClass} {epoch : Epoch}
    (h : s.DataGranted f cls epoch) (hn : ∀ e ∈ (s.flow f).window, ¬ e.IsDue) {frame : Frame}
    {rest : List Frame} (hq : (s.flow f).sendQueue = frame :: rest)
    (hw : (s.flow f).window.length < (s.profile f).window) :
    s.declined.dataGrantAt f cls = s.declined.sendNew f cls epoch frame rest := by
  have hdue : (s.declined.flow f).firstDue = none := (firstDue_eq_none_iff _).2 hn
  have hq' : (s.declined.flow f).sendQueue = frame :: rest := hq
  have ho : s.declined.offersData f = true := (offersData_iff _ _).2 ⟨h.running, h.state,
    .inr ⟨by simp [hq'], hw⟩⟩
  simp only [State.dataGrantAt, carrierEpoch_of_partnered h.partnered h.epoch, ho, State.serveData, hdue, hq',
    if_true]

/-- R8, R139: a grant that finds nothing offered is declined. -/
theorem dataGrantAt_declined {s : State} {f : FlowId} {cls : PortClass}
    (h : s.part.state ≠ .partnered ∨ s.part.ownEpoch = none ∨ s.offersData f = false) :
    s.declined.dataGrantAt f cls = s.declined := by
  unfold State.dataGrantAt
  split
  · rfl
  · next epoch he =>
    obtain ⟨hp, hown⟩ : s.part.state = .partnered ∧ s.part.ownEpoch = some epoch :=
      Option.ite_none_right_eq_some.1 he
    have ho : s.declined.offersData f = false := by
      rcases h with h | h | h
      · exact absurd hp h
      · rw [h] at hown; cases hown
      · exact h
    simp [ho]

/-- R137, R138, R140: what a data grant that is taken sends, and what it leaves of the ports, the flow and the
counters. -/
theorem sendData_presenting {s : State} (hp : s.part.state = .partnered) (f : FlowId) (cls : PortClass)
    (epoch : Epoch) (body : BlockBody) (g : Flow → Flow) (c : FlowCounters → FlowCounters) :
    ((s.declined.modifyFlow f g).sendData f cls epoch body).countFlow f c =
      { s.presenting .plain ⟨epoch, body⟩ with
        flows := writeAt s.flows f (g (s.flow f))
        link := { (s.presenting .plain ⟨epoch, body⟩).link with
          dataPositions := writeAt s.link.dataPositions cls (f + 1)
          bulkCredit := if s.link.bulkCredit < 15 then s.link.bulkCredit + 1 else s.link.bulkCredit }
        flowCounters := writeAt s.flowCounters f (c (readAt s.flowCounters f)) } := by
  unfold State.sendData
  rw [present_eq, if_pos (by exact hp)]
  rfl

/-- R6, R20, R22: a change of the one entry of a sequence, which moves to the end of the list. -/
theorem sentAgain_eq {fl : Flow} {e e' : WindowEntry} {g : WindowEntry → WindowEntry} (hg : g e = e')
    (hu : ∀ x ∈ fl.window, x.seq = e.seq → x = e) :
    ((fl.modifyEntry e.seq g).moveToEnd e.seq).startRetx = { fl with
      window := fl.window.map fun x => if x.seq = e.seq then e' else x
      txOrder := fl.txOrder.filter (· ≠ e.seq) ++ [e.seq]
      retxTimer := if fl.retxTimer = .stopped then .running fl.rto else fl.retxTimer } := by
  have hw : (fl.modifyEntry e.seq g).window = fl.window.map fun x => if x.seq = e.seq then e' else x :=
    List.map_congr_left fun x hx => by
      split
      · next hq => rw [hu x hx hq, hg]
      · rfl
  rw [← hw, ← startIfStopped_eq]
  rfl

/-- R20: a due entry below its limit is sent again. -/
theorem serveDue_again {s : State} {f : FlowId} (cls : PortClass) (epoch : Epoch) {e e' : WindowEntry}
    (hp : s.part.state = .partnered) (hl : e.transmissions < 1 + (s.profile f).retryLimit)
    (he : e.resend = e') (hu : ∀ x ∈ (s.flow f).window, x.seq = e.seq → x = e) :
    s.declined.serveDue f cls epoch e =
      { s.presenting .plain ⟨epoch, e.block f⟩ with
        flows := writeAt s.flows f { s.flow f with
          window := (s.flow f).window.map fun x => if x.seq = e.seq then e' else x
          txOrder := (s.flow f).txOrder.filter (· ≠ e.seq) ++ [e.seq]
          retxTimer := if (s.flow f).retxTimer = .stopped then .running (s.flow f).rto
            else (s.flow f).retxTimer }
        link := { (s.presenting .plain ⟨epoch, e.block f⟩).link with
          dataPositions := writeAt s.link.dataPositions cls (f + 1)
          bulkCredit := if s.link.bulkCredit < 15 then s.link.bulkCredit + 1 else s.link.bulkCredit }
        flowCounters := writeAt s.flowCounters f { readAt s.flowCounters f with
          dataRetransmitted := (readAt s.flowCounters f).dataRetransmitted + 1 } } := by
  rw [State.serveDue, if_pos (by exact hl), State.sendAgain, sendData_presenting hp, Flow.resend,
    sentAgain_eq he hu]

end Sys2Proof.Machine

section
open Sys2Proof Sys2Proof.Machine

/-- Settles O25: new data, a lost frame or an ADVANCE again, or nothing. -/
theorem dataGrantSends : Obligations.DataGrantSends := by
  refine ⟨?_, ?_, ?_, ?_⟩
  · intro s f cls epoch frame rest hg hp he hs hsus hn hq hw
    rw [execDataGrant_eq hg, dataGrantAt_new ⟨hg, hp, he, hs, hsus⟩ hn hq hw, State.sendNew,
      sendData_presenting hp]
    simp only [Flow.takeNew, Flow.startRetx, startIfStopped_eq]
    rfl
  · intro s f cls epoch q n frame older newer hg hp he hs hsus hfirst hl hu
    rw [execDataGrant_eq hg, dataGrantAt_due ⟨hg, hp, he, hs, hsus⟩ hfirst, serveDue_again cls epoch hp hl rfl hu]
    rfl
  · intro s f cls epoch q n older newer hg hp he hs hsus hfirst hl hu
    rw [execDataGrant_eq hg, dataGrantAt_due ⟨hg, hp, he, hs, hsus⟩ hfirst, serveDue_again cls epoch hp hl rfl hu]
    rfl
  · intro s f cls hg hno
    rw [execDataGrant_eq hg, dataGrantAt_declined]
    rcases hno with h | h | h
    · exact .inl h
    · exact .inr (.inl h)
    · refine .inr (.inr (Bool.eq_false_iff.2 fun ho => ?_))
      obtain ⟨hrun, hst, hwork⟩ := (offersData_iff s f).1 ho
      rcases h with ⟨h1, h2⟩ | h | ⟨h1, h2⟩
      · rcases hst with hst | hst
        · exact h1 hst
        · exact h2 hst
      · rw [hrun] at h; cases h
      · rcases hwork with ⟨e, he, hd⟩ | ⟨hq, hw⟩
        · exact h1 e he hd
        · rcases h2 with h2 | h2
          · exact hq h2
          · omega

end

namespace Sys2Proof.Machine

/-! ## An exhausted entry (R21, R22) -/

/-- R22: at the limit a lost frame under SKIP is given up. -/
theorem serveDue_skip {s : State} {f : FlowId} (cls : PortClass) (epoch : Epoch) {e : WindowEntry}
    {frame : Frame} (hl : 1 + (s.profile f).retryLimit ≤ e.transmissions) (hc : e.condition = .pendingRetx frame)
    (hx : (s.profile f).exhaustion = .skip) : s.serveDue f cls epoch e = s.sendSkip f cls epoch e := by
  rw [State.serveDue, if_neg (by omega), hc, hx]

/-- R21: at the limit a lost frame under FAIL, and an ADVANCE under either policy, fails the flow. -/
theorem serveDue_exhaust {s : State} {f : FlowId} (cls : PortClass) (epoch : Epoch) {e : WindowEntry}
    (hl : 1 + (s.profile f).retryLimit ≤ e.transmissions)
    (hc : e.condition = .skipped .due ∨
      ((∃ frame, e.condition = .pendingRetx frame) ∧ (s.profile f).exhaustion = .fail)) :
    s.serveDue f cls epoch e = s.exhaust f := by
  rw [State.serveDue, if_neg (by omega)]
  rcases hc with hc | ⟨⟨frame, hc⟩, hx⟩
  · rw [hc]
  · rw [hc, hx]

/-- R22 steps 2, 4 and 5. -/
theorem skip_eq (fl : Flow) (q : Seq) : fl.skip q = { fl with
    window := fl.window.map fun e => if e.seq = q then ⟨q, .skipped .sent, 1⟩ else e
    txOrder := fl.txOrder.filter (· ≠ q) ++ [q]
    retxTimer := if fl.retxTimer = .stopped then .running fl.rto else fl.retxTimer } := by
  have hw : (fl.modifyEntry q fun e => { e with condition := .skipped .sent, transmissions := 1 }).window =
      fl.window.map fun e => if e.seq = q then ⟨q, .skipped .sent, 1⟩ else e :=
    List.map_congr_left fun x _ => by
      split
      · next hq => exact hq ▸ rfl
      · rfl
  rw [← hw, ← startIfStopped_eq]
  rfl

/-- R98, R100: the low-pool test of a state that differs beside the pool, the parameters and the notices. -/
theorem State.Raises.congr {s u t t' : State} {causes : List NoticeContent} (h : s.Raises t causes)
    (hp : s.pool = u.pool) (hl : s.params.poolLow = u.params.poolLow) (hn : s.notices = u.notices)
    (tp : t'.pool = t.pool) (tn : t'.notices = t.notices) : u.Raises t' causes := by
  obtain ⟨n, hlow, hnot⟩ := h
  exact ⟨n, tp ▸ hlow.congr hp hl hn, tn.trans hnot⟩

/-- R22: a frame given up, whose buffer returns to free, and its ADVANCE presented. -/
theorem sendSkip_presenting {s : State} (hp : s.part.state = .partnered) {f : FlowId} (cls : PortClass)
    (epoch : Epoch) (e : WindowEntry) (hh : 1 ≤ s.held f) (hx : s.engine.executing = none) :
    ∃ t, s.declined.sendSkip f cls epoch e = t ∧ s.BufferReturned t (.flow f) ∧
      t.flows = writeAt s.flows f ((s.flow f).skip e.seq) ∧
      t.link = { (s.presenting .plain ⟨epoch, .advance f e.seq⟩).link with
        dataPositions := writeAt s.link.dataPositions cls (f + 1)
        bulkCredit := if s.link.bulkCredit < 15 then s.link.bulkCredit + 1 else s.link.bulkCredit } ∧
      t.flowCounters = writeAt s.flowCounters f { readAt s.flowCounters f with
        skipped := (readAt s.flowCounters f).skipped + 1 } ∧
      (s.presenting .plain ⟨epoch, .advance f e.seq⟩).Unchanged [.flows, .pool, .link, .flowCounters, .notices]
        t := by
  obtain ⟨pool, notices, e', hret⟩ := releaseAccount_returned (s := s.declined) (account := .flow f) hh hx
  have hrel : s.declined.releaseFlow f 1 = ({ s with pool := pool, notices := notices } : State).declined := e'
  have hskip : s.declined.sendSkip f cls epoch e =
      ((({ s with pool := pool, notices := notices } : State).declined.modifyFlow f (·.skip e.seq)).sendData f cls
        epoch (.advance f e.seq)).countFlow f fun c => { c with skipped := c.skipped + 1 } := by
    unfold State.sendSkip
    simp only [hrel]
  have h := hret s.wire
  refine ⟨_, hskip.trans (sendData_presenting (by exact hp) f cls epoch _ _ _), ?_, rfl, rfl, rfl, ?_⟩
  · exact {
      free := h.free
      held := h.held
      bulkHeld := h.bulkHeld
      reservation := h.reservation
      raises := h.raises.congr rfl rfl rfl rfl rfl }
  · constructor <;> simp [State.presenting]

end Sys2Proof.Machine

section
open Sys2Proof Sys2Proof.Machine

/-- Settles O26: the conversion of R22, or the failure of R21 with the ABORT that it owes. -/
theorem exhaustedEntryServed : Obligations.ExhaustedEntryServed := by
  constructor
  · intro s f cls epoch q n frame older newer hg hp he hs hsus hfirst hl hx hh fl p hex
    obtain ⟨t, ht, hret, hflows, hlink, hcount, hrest⟩ :=
      sendSkip_presenting hp cls epoch ⟨q, .pendingRetx frame, n⟩ hh hex
    refine ⟨t, ?_, ?_, fun k hk => ?_, ?_, fun k hk => ?_, hret.free, hret.reservation, hret.bulkHeld, hlink, hcount,
      hret.raises, hrest⟩
    · rw [execDataGrant_eq hg, dataGrantAt_due ⟨hg, hp, he, hs, hsus⟩ hfirst,
        serveDue_skip (s := s.declined) (e := ⟨q, .pendingRetx frame, n⟩) cls epoch hl rfl hx, ht]
    · rw [State.flow, hflows, readAt_writeAt_same, skip_eq]
    · rw [State.flow, hflows, readAt_writeAt_ne _ _ (Ne.symm hk)]; rfl
    · simpa using hret.held f
    · simpa [Ne.symm hk] using hret.held k
  · intro s f cls epoch e older newer hg hp he hs hsus hfirst hl hc hb hex
    obtain ⟨t, ht, hended, hblock, hcause, hlink, hraises, hrest⟩ :=
      endFlow_owing s.declined f .abort .failed .retryExhausted (some .retryExhausted)
        (fun _ => (.aborted, some .retryExhausted)) hex hb rfl
    refine ⟨t, ?_, { hended with }, hcause, hblock, hlink, hraises.congr rfl rfl rfl rfl rfl, ?_⟩
    · rw [execDataGrant_eq hg, dataGrantAt_due ⟨hg, hp, he, hs, hsus⟩ hfirst,
        serveDue_exhaust (s := s.declined) cls epoch hl hc, ← ht]
      rfl
    · exact { hrest with link := by simp }

end

namespace Sys2Proof.Machine

/-! ## OPEN and OPEN_ACK received (R54 to R56) -/

theorem exec_openReceived {s : State} {f : FlowId} {epoch : Epoch} {window : Nat} {order : OrderMode}
    (h : s.Receives ⟨epoch, .openFlow f window order⟩) :
    exec .openReceived s = .next (s.receiving.openAtFlow f window order).finish := by
  obtain ⟨rest, hl⟩ := toFlows_of_receives h
  simp only [exec, execOpenReceived, hl]
  rw [ifAccepted_of_receives (b := ⟨epoch, .openFlow f window order⟩) h]

theorem exec_openAckReceived {s : State} {f : FlowId} {epoch : Epoch} {verdict : Verdict}
    (h : s.Receives ⟨epoch, .openAck f verdict⟩) :
    exec .openAckReceived s = .next (s.receiving.openAckAtFlow f verdict).finish := by
  obtain ⟨rest, hl⟩ := toFlows_of_receives h
  simp only [exec, execOpenAckReceived, hl]
  rw [ifAccepted_of_receives (b := ⟨epoch, .openAck f verdict⟩) h]

/-- R94, R100: a reservation that shared free covers is made, with one low-pool test. -/
theorem reserveFlow_of_room {s : State} {f : FlowId} (h : (s.profile f).reserve ≤ s.pool.sharedFree)
    (he : s.engine.executing = none) :
    ∃ armed n, s.reserveFlow f = some { s with
        pool := { s.pool with
          reservation := writeAt s.pool.reservation f (s.profile f).reserve, lowArmed := armed }
        notices := n } ∧
      s.LowPoolTested { s.pool with
        reservation := writeAt s.pool.reservation f (s.profile f).reserve, lowArmed := armed } n := by
  obtain ⟨armed, n, e, ht⟩ := lowPoolTest_tested s
    { s.pool with reservation := writeAt s.pool.reservation f (s.profile f).reserve } rfl he
  refine ⟨armed, n, ?_, ht⟩
  rw [State.reserveFlow, if_pos h]
  exact congrArg some e

theorem reserveFlow_eq_none {s : State} {f : FlowId} (h : s.pool.sharedFree < (s.profile f).reserve) :
    s.reserveFlow f = none := by
  rw [State.reserveFlow, if_neg (by omega)]

/-- R54: the verdict of the checks that an OPEN at a CLOSED flow fails. -/
theorem openAtClosed_refused {s : State} {f : FlowId} {window : Nat} {order : OrderMode}
    (h : (s.profile f).mode = .disabled ∨ window ≠ (s.profile f).window ∨ order ≠ (s.profile f).order ∨
      s.pool.sharedFree < (s.profile f).reserve) :
    s.openAtClosed f window order = s.makePending f (.openAck
      (if (s.profile f).mode = .disabled then .notReliable
        else if window ≠ (s.profile f).window ∨ order ≠ (s.profile f).order then .profileMismatch
        else .noBuffers)) := by
  unfold State.openAtClosed
  simp only
  split
  · rfl
  · next hm =>
    split
    · rfl
    · next hd =>
      have hr : s.prepareOpening f = none := by
        rw [State.prepareOpening, reserveFlow_eq_none (by tauto)]
        rfl
      rw [hr]

/-- R54: an OPEN that passes the checks opens a CLOSED flow. -/
theorem openAtClosed_taken {s : State} {f : FlowId} (hs : (s.flow f).state = .closed)
    (hm : (s.profile f).mode = .reliable) (hr : (s.profile f).reserve ≤ s.pool.sharedFree)
    (he : s.engine.executing = none) :
    ∃ armed n, s.openAtClosed f (s.profile f).window (s.profile f).order = { s with
        flows := writeAt s.flows f { (s.flow f).reinitialised (s.profile f).rtoBase with
          state := .opened, pendingBlock := some (.openAck .accept) }
        pool := { s.pool with
          reservation := writeAt s.pool.reservation f (s.profile f).reserve, lowArmed := armed }
        link := s.link.queued f
        notices := n.takeAll [.flowState f .closed .opened .peerOpen] } ∧
      s.LowPoolTested { s.pool with
        reservation := writeAt s.pool.reservation f (s.profile f).reserve, lowArmed := armed } n := by
  obtain ⟨armed, n, e, ht⟩ := reserveFlow_of_room hr he
  refine ⟨armed, n, ?_, ht⟩
  have hst : (readAt s.flows f).state = .closed := hs
  have hp : s.prepareOpening f = some (({ s with
      pool := { s.pool with
        reservation := writeAt s.pool.reservation f (s.profile f).reserve, lowArmed := armed }
      notices := n } : State).modifyFlow f (·.reinitialised (s.profile f).rtoBase)) := by
    rw [State.prepareOpening, e]
    rfl
  unfold State.openAtClosed
  simp only [hm, hp]
  simp [modifyFlow_makePending, changeFlowState_eq, Flow.reinitialised, State.flow, hst, he, Notices.takeAll]

/-- R49, R158: a change of state that completes the flow's deferred request, with the causes in order. -/
theorem changeFlowState_completes {s : State} (he : s.engine.executing = none) (f : FlowId) (new : FlowState)
    (cause : FlowCause) :
    (s.changeFlowState f new cause).completeDeferred f .done = { s with
      flows := writeAt s.flows f { s.flow f with state := new, deferred := none }
      notices := s.notices.takeAll (.flowState f (s.flow f).state new cause ::
        (s.flow f).completion fun _ => (.done, none)) } := by
  have hc := complete_takeAll ((s.changeFlowState f new cause).modifyFlow f fun fl => { fl with deferred := none })
    (s.flow f) (fun _ => (.done, none)) he
  have hd : ((s.changeFlowState f new cause).flow f).deferred = (s.flow f).deferred := by
    simp [changeFlowState_eq, State.flow]
  unfold State.completeDeferred
  rw [hd]
  refine hc.trans ?_
  simp [changeFlowState_eq, State.modifyFlow, State.flow, he, Notices.takeAll]

/-- R55, OPENING: crossed opens that match. -/
theorem openCrossed_matching {s : State} {f : FlowId} (hs : (s.flow f).state = .opening)
    (he : s.engine.executing = none) {window : Nat} {order : OrderMode} (hw : window = (s.profile f).window)
    (ho : order = (s.profile f).order) :
    s.openCrossed f window order = { s with
      flows := writeAt s.flows f { s.flow f with
        state := .opened, openTimer := .stopped, pendingBlock := some (.openAck .accept), deferred := none }
      link := s.link.queued f
      notices := s.notices.takeAll (.flowState f .opening .opened .peerOpen ::
        (s.flow f).completion fun _ => (.done, none)) } := by
  have hst : (readAt s.flows f).state = .opening := hs
  unfold State.openCrossed
  simp only [hw, ho, and_self, if_true]
  rw [modifyFlow_makePending, changeFlowState_completes (by exact he)]
  simp [State.flow, hst, Flow.completion]

/-- R56: an OPENING flow whose OPEN has been taken, or displaced, is accepted. -/
theorem acceptanceAtFlow_opening {s : State} {f : FlowId} (hs : (s.flow f).state = .opening)
    (he : s.engine.executing = none)
    (hp : ∀ window order, (s.flow f).pendingBlock ≠ some (.openFlow window order)) :
    s.acceptanceAtFlow f = { s with
      flows := writeAt s.flows f { s.flow f with state := .opened, openTimer := .stopped, deferred := none }
      notices := s.notices.takeAll (.flowState f .opening .opened .openAccepted ::
        (s.flow f).completion fun _ => (.done, none)) } := by
  have hst : (readAt s.flows f).state = .opening := hs
  have hc : ∀ u : State, (u.flow f).pendingBlock = (s.flow f).pendingBlock → u.clearOpen f = u := by
    intro u hu
    unfold State.clearOpen
    split
    · next h => exact absurd (hu ▸ h) (hp _ _)
    · rfl
  unfold State.acceptanceAtFlow
  simp only [hs]
  rw [hc _ (by simp), changeFlowState_completes (by exact he)]
  simp [State.modifyFlow, State.flow, hst, Flow.completion]

/-- R56: an OPENING flow that still owes its OPEN is accepted, and the OPEN is cleared. -/
theorem acceptanceAtFlow_owing {s : State} {f : FlowId} (hs : (s.flow f).state = .opening)
    (he : s.engine.executing = none) {window : Nat} {order : OrderMode}
    (hp : (s.flow f).pendingBlock = some (.openFlow window order)) :
    s.acceptanceAtFlow f = { s with
      flows := writeAt s.flows f { s.flow f with
        state := .opened, openTimer := .stopped, pendingBlock := none, deferred := none }
      link := s.link.unqueued f
      notices := s.notices.takeAll (.flowState f .opening .opened .openAccepted ::
        (s.flow f).completion fun _ => (.done, none)) } := by
  have hst : (readAt s.flows f).state = .opening := hs
  have hc : ∀ u : State, (u.flow f).pendingBlock = (s.flow f).pendingBlock → u.clearOpen f = u.clearPending f := by
    intro u hu
    simp only [State.clearOpen, hu, hp]
  unfold State.acceptanceAtFlow
  simp only [hs]
  rw [hc _ (by simp), changeFlowState_completes (by exact he)]
  simp [State.modifyFlow, clearPending_eq, State.flow, hst, Flow.completion, LinkPort.unqueued]

/-! ### OPEN and OPEN_ACK by the state of the flow -/

theorem openAtFlow_closed {s : State} {f : FlowId} (h : (s.flow f).state = .closed) (window : Nat)
    (order : OrderMode) : s.openAtFlow f window order = s.openAtClosed f window order := by
  simp only [State.openAtFlow, h]

theorem openAtFlow_opening {s : State} {f : FlowId} (h : (s.flow f).state = .opening) (window : Nat)
    (order : OrderMode) : s.openAtFlow f window order = s.openCrossed f window order := by
  simp only [State.openAtFlow, h]

theorem openAtFlow_opened {s : State} {f : FlowId} (h : (s.flow f).state = .opened) (window : Nat)
    (order : OrderMode) : s.openAtFlow f window order = s.makePending f (.openAck .accept) := by
  simp only [State.openAtFlow, h]

theorem openAtFlow_failed {s : State} {f : FlowId} (h : (s.flow f).state = .failed) (window : Nat)
    (order : OrderMode) : s.openAtFlow f window order = s.makePending f .abort := by
  simp only [State.openAtFlow, h]

theorem openAtFlow_stale {s : State} {f : FlowId} (h : (s.flow f).state = .draining ∨ (s.flow f).state = .closing)
    (window : Nat) (order : OrderMode) : s.openAtFlow f window order = s.countStale := by
  rcases h with h | h <;> simp only [State.openAtFlow, h]

/-- R55: an OPEN that differs at an OPENING flow. -/
theorem openCrossed_differing {s : State} {f : FlowId} {window : Nat} {order : OrderMode}
    (h : window ≠ (s.profile f).window ∨ order ≠ (s.profile f).order) :
    s.openCrossed f window order = s.makePending f (.openAck .profileMismatch) := by
  unfold State.openCrossed
  simp only
  rw [if_neg (by tauto)]

theorem openAckAtFlow_accept (s : State) (f : FlowId) : s.openAckAtFlow f .accept = s.acceptanceAtFlow f := by
  simp only [State.openAckAtFlow, if_true]

theorem acceptanceAtFlow_closed {s : State} {f : FlowId} (h : (s.flow f).state = .closed) :
    s.acceptanceAtFlow f = s.makePending f .abort := by
  simp only [State.acceptanceAtFlow, h]

theorem acceptanceAtFlow_opened {s : State} {f : FlowId} (h : (s.flow f).state = .opened) :
    s.acceptanceAtFlow f = s := by
  simp only [State.acceptanceAtFlow, h]

theorem acceptanceAtFlow_stale {s : State} {f : FlowId}
    (h : (s.flow f).state = .draining ∨ (s.flow f).state = .closing ∨ (s.flow f).state = .failed) :
    s.acceptanceAtFlow f = s.countStale := by
  rcases h with h | h | h <;> simp only [State.acceptanceAtFlow, h]

/-- R56: a refusal outside OPENING. -/
theorem openAckAtFlow_refusal_stale {s : State} {f : FlowId} {verdict : Verdict} (hv : verdict ≠ .accept)
    (h : (s.flow f).state ≠ .opening) : s.openAckAtFlow f verdict = s.countStale := by
  simp only [State.openAckAtFlow, if_neg hv, State.refusalAtFlow]
  cases hs : (s.flow f).state with
  | opening => exact absurd hs h
  | closed | opened | draining | closing | failed => rfl

end Sys2Proof.Machine

section
open Sys2Proof Sys2Proof.Machine

/-- Settles O37: an OPEN and an OPEN_ACK in each state of the flow. -/
theorem flowsOpen : Obligations.FlowsOpen := by
  intro s f epoch he fl p owing stale
  have owes : ∀ b, (s.receiving.makePending f b).finish = owing b := fun b => rfl
  have stales : s.receiving.countStale.finish = stale := rfl
  refine ⟨fun window order hr hs => ⟨fun hm hw ho hres => ?_, fun verdict hv hfail => ?_⟩, fun hr hs => ?_,
    fun hr hs => ⟨fun hp => ?_, fun window order hp => ?_⟩, fun window order hr => ⟨fun hs hd => ?_, fun hs => ?_,
      fun hs => ?_, fun hs => ?_⟩, fun verdict hr => ⟨fun hv => ⟨fun hs => ?_, fun hs => ?_, fun hs => ?_⟩,
      fun hv hs => ?_⟩⟩
  · subst hw ho
    obtain ⟨armed, n, e, ht⟩ := openAtClosed_taken (s := s.receiving) hs hm hres he
    refine ⟨_, by rw [exec_openReceived hr, openAtFlow_closed (s := s.receiving) hs], ?_⟩
    change s.receiving.openAtClosed f p.window p.order = _ at e
    rw [e]
    refine ⟨?_, fun k hk => ?_, rfl, rfl, ⟨n, ht.congr rfl rfl rfl, rfl⟩, ?_⟩
    · exact readAt_writeAt_same _ _ _
    · exact readAt_writeAt_ne _ _ (Ne.symm hk)
    · constructor <;> simp
  · rw [exec_openReceived hr, openAtFlow_closed (s := s.receiving) hs, openAtClosed_refused (s := s.receiving) hfail,
      owes, hv]
    rfl
  · rw [exec_openReceived hr, openAtFlow_opening (s := s.receiving) hs,
      openCrossed_matching (s := s.receiving) (window := p.window) (order := p.order) hs he rfl rfl]
    rfl
  · rw [exec_openAckReceived hr, openAckAtFlow_accept, acceptanceAtFlow_opening (s := s.receiving) hs he hp]
    rfl
  · rw [exec_openAckReceived hr, openAckAtFlow_accept, acceptanceAtFlow_owing (s := s.receiving) hs he hp]
    rfl
  · rw [exec_openReceived hr, openAtFlow_opening (s := s.receiving) hs, openCrossed_differing (s := s.receiving) hd,
      owes]
  · rw [exec_openReceived hr, openAtFlow_opened (s := s.receiving) hs, owes]
  · rw [exec_openReceived hr, openAtFlow_stale (s := s.receiving) hs, stales]
  · rw [exec_openReceived hr, openAtFlow_failed (s := s.receiving) hs, owes]
  · subst hv
    rw [exec_openAckReceived hr, openAckAtFlow_accept, acceptanceAtFlow_closed (s := s.receiving) hs, owes]
  · subst hv
    rw [exec_openAckReceived hr, openAckAtFlow_accept, acceptanceAtFlow_opened (s := s.receiving) hs]
  · subst hv
    rw [exec_openAckReceived hr, openAckAtFlow_accept, acceptanceAtFlow_stale (s := s.receiving) hs, stales]
  · rw [exec_openAckReceived hr, openAckAtFlow_refusal_stale (s := s.receiving) hv hs, stales]

end

namespace Sys2Proof.Machine

/-! ## A STATUS received at OPEN, DRAINING or CLOSING (R11 to R16) -/

theorem exec_statusReceived {s : State} {f : FlowId} {epoch : Epoch} {a : Seq} {map : BitVec 64}
    {high : Option Seq} (h : s.Receives ⟨epoch, .status f a map high⟩) :
    exec .statusReceived s = .next (s.receiving.statusAtFlow f a map high).finish := by
  obtain ⟨rest, hl⟩ := toFlows_of_receives h
  simp only [exec, execStatusReceived, hl]
  rw [ifAccepted_of_receives (b := ⟨epoch, .status f a map high⟩) h]

/-- R14: a map position is set for the sequence that it names. -/
theorem mapSet_eq_any (a : Seq) (map : BitVec 64) (q : Seq) :
    mapSet a map q = (List.range 64).any fun k => 1 ≤ k ∧ q = a + BitVec.ofNat 12 k ∧ map.getLsbD k := by
  have hq : a + BitVec.ofNat 12 (seqDistance a q) = q := by
    rw [seqDistance, BitVec.ofNat_toNat, BitVec.setWidth_eq, add_sub_cancel]
  rw [Bool.eq_iff_iff, List.any_eq_true]
  simp only [mapSet, Bool.and_eq_true, decide_eq_true_iff, List.mem_range]
  constructor
  · rintro ⟨⟨h1, h63⟩, hset⟩
    exact ⟨seqDistance a q, by omega, h1, hq.symm, hset⟩
  · rintro ⟨k, hk, h1, rfl, hset⟩
    rw [seqDistance_add, Nat.mod_eq_of_lt (by omega)]
    exact ⟨⟨h1, by omega⟩, hset⟩

/-- Table 1.3: the condition of an entry after a STATUS, by whether its position is set and whether it lies below
H. -/
def EntryCondition.afterStatus (set lost : Bool) : EntryCondition → EntryCondition
  | .outstanding frame => if set then .sacked frame else if lost then .pendingRetx frame else .outstanding frame
  | .pendingRetx frame => if set then .sacked frame else .pendingRetx frame
  | .sacked frame => .sacked frame
  | .skipped .sent => if lost then .skipped .due else .skipped .sent
  | .skipped .due => .skipped .due

theorem marked_eq_afterStatus (e : WindowEntry) (set lost : Bool) :
    e.marked set lost = { e with condition := e.condition.afterStatus set lost } := by
  obtain ⟨q, c, n⟩ := e
  rcases c with frame | frame | frame | adv
  case skipped => cases adv <;> cases set <;> cases lost <;> rfl
  all_goals cases set <;> cases lost <;> rfl

theorem releasedBuffers_eq (fl : Flow) (a : Seq) :
    fl.releasedBuffers a = (fl.window.filter fun e => seqBefore e.seq a).countP (·.holdsBuffer) := by
  rw [List.countP_filter]
  exact List.countP_congr fun e _ => by simp [and_comm]

/-- R98, R100: buffers that a flow's account holds return to free, with one low-pool test. -/
theorem releaseFlow_returned {s : State} {f : FlowId} {k : Nat} (h : k ≤ s.held f)
    (he : s.engine.executing = none) :
    ∃ armed n, s.releaseFlow f k = { s with
        pool := { s.pool with
          free := s.pool.free + k, held := writeAt s.pool.held f (s.held f - k), lowArmed := armed }
        notices := n } ∧
      s.LowPoolTested { s.pool with
        free := s.pool.free + k, held := writeAt s.pool.held f (s.held f - k), lowArmed := armed } n := by
  have hp : s.pool.returnFlow f k = { s.pool with
      free := s.pool.free + k, held := writeAt s.pool.held f (s.held f - k) } := by
    simp only [Pool.returnFlow, State.held, Nat.min_eq_left (show k ≤ readAt s.pool.held f from h)]
  obtain ⟨armed, n, e, ht⟩ := lowPoolTest_tested s { s.pool with
    free := s.pool.free + k, held := writeAt s.pool.held f (s.held f - k) } rfl he
  refine ⟨armed, n, ?_, ht⟩
  rw [State.releaseFlow, State.modifyPool, hp, e]

/-- R98, R100: with nothing released there is no change and no test. -/
theorem releaseFlow_zero (s : State) (f : FlowId) : s.releaseFlow f 0 = s := by
  have hp : s.pool.returnFlow f 0 = s.pool := by simp [Pool.returnFlow, writeAt_readAt]
  simp [State.releaseFlow, State.modifyPool, State.lowPoolTest, hp]

/-! ### The completion of a drain (R58) -/

theorem drained_iff (fl : Flow) : fl.drained = true ↔ fl.state = .draining ∧ fl.suspended = false ∧
    fl.sendQueue = [] ∧ fl.window = [] ∧ fl.pendingBlock = none := by
  simp [Flow.drained, and_assoc]

theorem completeDrain_waits {s : State} {f : FlowId}
    (h : (s.flow f).drained = false ∨ (s.flow f).drainOrigin = none) : s.completeDrain f = s := by
  unfold State.completeDrain
  rcases h with h | h <;> simp [h]

theorem completeDrain_local {s : State} {f : FlowId} {fl : Flow} (hfl : readAt s.flows f = fl) (h : fl.drained = true)
    (ho : fl.drainOrigin = some .localEnd) (he : s.engine.executing = none) :
    s.completeDrain f = { s with
      flows := writeAt s.flows f { fl with
        state := .closing, drainOrigin := none, attempts := 0, retxTimer := .stopped, pendingBlock := some .close }
      link := s.link.queued f
      notices := s.notices.takeAll [.flowState f .draining .closing .drained] } := by
  subst hfl
  have hs : (readAt s.flows f).state = .draining := ((drained_iff _).1 h).1
  have hd : (s.flow f).drained = true := h
  have hor : (s.flow f).drainOrigin = some .localEnd := ho
  unfold State.completeDrain
  simp only [hd, hor, if_true]
  rw [makePending_queued]
  simp [State.modifyFlow, changeFlowState_eq, State.flow, hs, he, Notices.takeAll]

theorem completeDrain_peer {s t : State} {f : FlowId} {fl : Flow} (ht : t = s.completeDrain f)
    (hfl : readAt s.flows f = fl) (h : fl.drained = true) (ho : fl.drainOrigin = some .peerEnd)
    (he : s.engine.executing = none) (hb : fl.reorder.countP (·.holdsBuffer) ≤ s.held f) :
    s.FlowEnded t f .closed ∧ (t.flow f).pendingBlock = some .closeAck ∧
      (t.flow f).failureCause = fl.failureCause ∧ t.link = s.link.queued f ∧
      s.Raises t ((fl.completion fun _ => (.done, none)) ++ [.flowState f .draining .closed .drained]) ∧
      s.Unchanged [.flows, .pool, .link, .notices] t := by
  subst hfl
  obtain ⟨hs, -, hq, hw, -⟩ := (drained_iff _).1 h
  have hc : (s.flow f).collectedBuffers ≤ s.held f := by
    simpa [Flow.collectedBuffers, State.flow, hq, hw] using hb
  have hd : s.completeDrain f =
      (s.makePending f .closeAck).endFlow f .closed .drained none true (plainOutcome .done) := by
    unfold State.completeDrain
    simp only [State.flow, h, ho, if_true]
    rfl
  obtain ⟨_, rfl, hended, hblock, hcause, hlink, hraises, hrest⟩ :=
    endFlow_owing s f .closeAck .closed .drained none (plainOutcome .done) he hc rfl
  rw [State.flow, hs] at hraises
  rw [ht, hd]
  exact ⟨hended, hblock, hcause, hlink, hraises, hrest⟩

/-! ### A STATUS that is taken -/

/-- R11: a stale STATUS is counted. -/
theorem statusAtFlow_stale {s : State} {f : FlowId} (ht : (s.flow f).takesBlocks = true) {a : Seq}
    (hstale : (s.flow f).statusStale a = true) (map : BitVec 64) (high : Option Seq) :
    s.statusAtFlow f a map high = s.countFlow f fun c => { c with statusStale := c.statusStale + 1 } := by
  rw [statusAtFlow_of_traffic ht, if_pos hstale]

/-- R11 to R16: the state that a taken STATUS leaves before a drain is completed. -/
theorem statusAtFlow_taken {s : State} {f : FlowId} (ht : (s.flow f).takesBlocks = true) {a : Seq}
    (hstale : (s.flow f).statusStale a = false) {map : BitVec 64} {high : Option Seq} {fl : Flow}
    (hfl : (s.flow f).takeStatus (s.profile f).rtoBase a map high = fl) {k : Nat}
    (hk : (s.flow f).releasedBuffers a = k) (hh : k ≤ s.held f) (he : s.engine.executing = none) :
    ∃ armed n, s.statusAtFlow f a map high = State.completeDrain { s with
        flows := writeAt s.flows f fl
        pool := { s.pool with
          free := s.pool.free + k, held := writeAt s.pool.held f (s.held f - k), lowArmed := armed }
        notices := n } f ∧
      s.LowPoolTested { s.pool with
        free := s.pool.free + k, held := writeAt s.pool.held f (s.held f - k), lowArmed := armed } n := by
  obtain ⟨armed, n, e, hlow⟩ := releaseFlow_returned
    (s := s.modifyFlow f (·.takeStatus (s.profile f).rtoBase a map high)) hh he
  refine ⟨armed, n, ?_, hlow.congr rfl rfl rfl⟩
  rw [statusAtFlow_of_traffic ht, if_neg (by simp [hstale]), hk, e, ← hfl]
  rfl

/-- R12, R58: in CLOSING, with nothing left to acknowledge, a STATUS for L changes nothing. -/
theorem statusAtFlow_acknowledged {s : State} {f : FlowId} (hs : (s.flow f).state = .closing)
    (hw : (s.flow f).window = []) (ho : (s.flow f).txOrder = []) {a : Seq} (ha : a = (s.flow f).lower)
    (map : BitVec 64) (high : Option Seq) : s.statusAtFlow f a map high = s := by
  subst ha
  have hk : (s.flow f).releasedBuffers (s.flow f).lower = 0 := by simp [Flow.releasedBuffers, hw]
  have hstale : (s.flow f).statusStale (s.flow f).lower = false := by simp [Flow.statusStale, seqDistance]
  have hm : s.modifyFlow f (·.takeStatus (s.profile f).rtoBase (s.flow f).lower map high) = s := by
    simp only [State.modifyFlow, Flow.takeStatus_of_acknowledged hs hw ho]
    simp [State.flow]
  rw [statusAtFlow_of_traffic ((s.flow f).takesBlocks_iff.2 (by tauto)), if_neg (by simp [hstale]), hm, hk,
    releaseFlow_zero]
  exact completeDrain_waits (.inl (by simp [Flow.drained, hs]))

end Sys2Proof.Machine

section
open Sys2Proof Sys2Proof.Machine

/-- Settles O35: a STATUS at OPEN, DRAINING or CLOSING, by whether it is stale and whether it ends a drain. -/
theorem statusReceivedAtOpen : Obligations.StatusReceivedAtOpen := by
  intro s f epoch a map high hr he hst fl c base kept order released set lost after window waits rto held acked
  have ht : fl.takesBlocks = true := fl.takesBlocks_iff.2 hst
  have hrel : fl.releasedBuffers a = released := releasedBuffers_eq fl a
  have hwin : fl.windowAfter a map high = window := List.map_congr_left fun e _ => by
    rw [marked_eq_afterStatus, mapSet_eq_any]
    rfl
  have htake : fl.state ≠ .closing → fl.takeStatus base a map high = { fl with
      lower := a, window := window, txOrder := order, rto := rto
      retxTimer := if window.any (·.inFlight) then if a = fl.lower then fl.retxTimer else .running base
        else .stopped } := fun hc => by
    rw [Flow.takeStatus_eq hc, hwin]
  have taken := fun {fl'} (hle : seqDistance fl.lower a ≤ seqDistance fl.lower fl.next)
      (hfl : fl.takeStatus base a map high = fl') (hheld : released ≤ s.held f) =>
    statusAtFlow_taken (s := s.receiving) ht (decide_eq_false (not_lt.2 hle)) hfl hrel hheld he
  have settled : ¬ waits →
      fl.suspended = false ∧ fl.sendQueue = [] ∧ window = [] ∧ fl.pendingBlock = none := fun hw => by
    simpa only [waits, not_or, not_not, ne_eq, Bool.not_eq_true] using hw
  have complete : fl.state = .draining → ¬ waits → fl.takeStatus base a map high = { fl with
      lower := a, window := [], txOrder := order, rto := rto, retxTimer := .stopped } := fun hs hw => by
    obtain ⟨-, -, hnil, -⟩ := settled hw
    rw [htake (by simp [hs]), hnil]
    rfl
  have drains : fl.state = .draining → ¬ waits → ({ fl with
      lower := a, window := [], txOrder := order, rto := rto, retxTimer := .stopped } : Machine.Flow).drained =
        true := fun hs hw => by
    obtain ⟨hsus, hq, -, hp⟩ := settled hw
    exact (drained_iff _).2 ⟨hs, hsus, hq, rfl, hp⟩
  refine ⟨fun hstale => ?_, fun hle hheld hs => ?_, fun hle hs hw => ⟨fun ho hheld => ?_, fun ho hheld => ?_⟩,
    fun hs hnil hord ha => ?_⟩
  · rw [exec_statusReceived hr, statusAtFlow_stale (s := s.receiving) ht (decide_eq_true hstale)]
    rfl
  · obtain ⟨armed, n, e, hlow⟩ := taken hle (htake (by rcases hs with h | ⟨h, -⟩ <;> simp [h])) hheld
    rw [completeDrain_waits] at e
    · refine ⟨_, exec_statusReceived hr, ?_⟩
      rw [e]
      refine ⟨readAt_writeAt_same _ _ _, fun k hk => readAt_writeAt_ne _ _ (Ne.symm hk), readAt_writeAt_same _ _ _,
        fun k hk => readAt_writeAt_ne _ _ (Ne.symm hk), rfl, rfl, rfl, ⟨n, hlow.congr rfl rfl rfl, rfl⟩, ?_⟩
      constructor <;> simp
    · rw [State.flow, readAt_writeAt_same]
      rcases hs with h | ⟨-, hwait | ho⟩
      · exact .inl (by simp [Flow.drained, h])
      · refine .inl (Bool.eq_false_iff.2 fun hd => ?_)
        obtain ⟨-, hsus, hq, hw, hp⟩ := (drained_iff _).1 hd
        rcases hwait with h | h | h | h
        · exact Bool.noConfusion (hsus.symm.trans h)
        · exact h hq
        · exact h hw
        · exact h hp
      · exact .inr ho
  · obtain ⟨armed, n, e, hlow⟩ := taken hle (complete hs hw) hheld
    refine ⟨_, exec_statusReceived hr, ?_⟩
    rw [e.trans (completeDrain_local (readAt_writeAt_same _ _ _) (drains hs hw) ho he)]
    refine ⟨readAt_writeAt_same _ _ _, fun k hk => ?_, readAt_writeAt_same _ _ _,
      fun k hk => readAt_writeAt_ne _ _ (Ne.symm hk), rfl, rfl, rfl, rfl, ⟨n, hlow.congr rfl rfl rfl, rfl⟩, ?_⟩
    · simp only [State.flow]
      rw [readAt_writeAt_ne _ _ (Ne.symm hk), readAt_writeAt_ne _ _ (Ne.symm hk)]
      rfl
    · constructor <;> simp
  · obtain ⟨armed, n, e, hlow⟩ := taken hle (complete hs hw) (by omega)
    obtain ⟨hended, hblock, hcause, hlink, hraises, hrest⟩ :=
      completeDrain_peer e (readAt_writeAt_same _ _ _) (drains hs hw) ho he
        (by rw [State.held, readAt_writeAt_same]; exact Nat.le_sub_of_add_le' hheld)
    obtain ⟨-, -, hnil, -⟩ := settled hw
    have hacked : acked = { s with
        flows := writeAt s.flows f { fl with
          lower := a, window := [], txOrder := order, rto := rto, retxTimer := .stopped }
        pool := { s.pool with free := s.pool.free + released, held := writeAt s.pool.held f held } } := by
      simp only [acked, hnil]
    refine ⟨_, armed, n, exec_statusReceived hr, ?_, hblock, hcause, hlink, hlow.congr rfl rfl rfl,
      hraises.congr rfl rfl rfl rfl rfl, ?_⟩
    · rw [hacked]
      exact { hended with }
    · exact { hrest with
        flows := fun h => absurd (by simp) h
        pool := fun h => absurd (by simp) h
        notices := fun h => absurd (by simp) h }
  · rw [exec_statusReceived hr, statusAtFlow_acknowledged (s := s.receiving) hs hnil hord ha]

end

namespace Sys2Proof.Machine

/-! ## The reading of a frame (R104, R105) -/

theorem field_skip {before after : List Byte} {offset size : Nat} (h : before.length ≤ offset) :
    field (before ++ after) offset size = field after (offset - before.length) size := by
  rw [field, slice, List.drop_append, List.drop_eq_nil_of_le h, List.nil_append]
  rfl

/-- A word written big-endian at the front reads back. -/
theorem field_word {w size : Nat} (hw : w = 8 * size) (v : BitVec w) (after : List Byte) :
    field (beBytes size v.toNat ++ after) 0 size = v.toNat := by
  subst hw
  have hv : v.toNat < 256 ^ size := by
    simpa [Nat.pow_mul] using v.isLt
  calc field (beBytes size v.toNat ++ after) 0 size
    _ = beValue (beBytes size v.toNat) := field_between (before := []) rfl (beBytes_length _ _)
    _ = v.toNat := by rw [beValue_beBytes, Nat.mod_eq_of_lt hv]

theorem drop_skip {before after : List Byte} {k : Nat} (h : before.length ≤ k) :
    (before ++ after).drop k = after.drop (k - before.length) := by
  rw [List.drop_append, List.drop_eq_nil_of_le h, List.nil_append]

theorem readFrame_untagged (destination source : Address) {etherType : BitVec 16} (h : etherType ≠ 0x8100)
    (payload : List Byte) :
    readFrame (beBytes 6 destination.toNat ++ beBytes 6 source.toNat ++ beBytes 2 etherType.toNat ++ payload) =
      ⟨destination, source, none, etherType, payload⟩ := by
  have he : etherType.toNat ≠ 0x8100 := fun hn => h (BitVec.eq_of_toNat_eq hn)
  simp [readFrame, List.append_assoc, field_skip, field_word, drop_skip, he]

/-- R104: the priority and the VLAN ID of a tag are its bits 13 to 15 and 0 to 11. -/
theorem tag_priority (priority : BitVec 3) (unread : BitVec 1) (vid : BitVec 12) :
    BitVec.ofNat 3 ((priority ++ unread ++ vid).toNat / 2 ^ 13) = priority := by
  refine BitVec.eq_of_getLsbD_eq fun k hk => ?_
  rw [BitVec.getLsbD_ofNat, Nat.testBit_div_two_pow, BitVec.testBit_toNat, BitVec.getLsbD_append,
    BitVec.getLsbD_append]
  simp [hk]

theorem tag_vid (priority : BitVec 3) (unread : BitVec 1) (vid : BitVec 12) :
    BitVec.ofNat 12 (priority ++ unread ++ vid).toNat = vid := by
  refine BitVec.eq_of_getLsbD_eq fun k hk => ?_
  rw [BitVec.getLsbD_ofNat, BitVec.testBit_toNat, BitVec.getLsbD_append]
  simp [hk]

theorem readFrame_tagged (destination source : Address) (priority : BitVec 3) (unread : BitVec 1) (vid : BitVec 12)
    (etherType : BitVec 16) (payload : List Byte) :
    readFrame (beBytes 6 destination.toNat ++ beBytes 6 source.toNat ++ beBytes 2 0x8100 ++
        beBytes 2 (priority ++ unread ++ vid).toNat ++ beBytes 2 etherType.toNat ++ payload) =
      ⟨destination, source, some (priority, vid), etherType, payload⟩ := by
  have hmark : ∀ after, field (beBytes 2 0x8100 ++ after) 0 2 = 0x8100 := field_word (w := 16) rfl 0x8100
  simpa [readFrame, List.append_assoc, field_skip, field_word, drop_skip, hmark] using
    And.intro (tag_priority priority unread vid) (tag_vid priority unread vid)

theorem isManagement_iff (s : State) (v : FrameView) : s.isManagement v = true ↔
    v.etherType = 0x9C41 ∧ (v.destination = s.params.stationAddress ∨ v.destination = BitVec.allOnes 48) := by
  simp [State.isManagement, managementEtherType, broadcastAddress]

/-! ## The actions (R2, R109 to R111) -/

/-- R103, R105, R106, R108: a good frame of the data path that an entry decides. -/
theorem exec_wireFrameReception_decided {s : State} {received : List Byte} {i : Fin 128}
    (hg : receptionGood received false = true) (hm : s.isManagement (readFrame (checkedPart received)) = false)
    (hi : s.tables.activeBank.classify (readFrame (checkedPart received)) = some i) :
    exec (.wireFrameReception received false) s = .next ((s.countHit i).entryAction
      (readAt s.tables.activeBank.entries i) (checkedPart received)).finish := by
  simp [exec, execWireFrameReception, State.receiveFrame, State.classifyFrame, hg, hm, hi]

theorem acceptFrame_refused {s : State} {f : FlowId} (h : ¬ s.HasBufferFor f) (frame : Frame) :
    s.acceptFrame f frame = s.countFlow f fun c => { c with txRefused := c.txRefused + 1 } := by
  have hn : s.grantFlow f = none := by
    have hg : ¬ s.pool.grantsFlow f (s.profile f).cap = true := fun hg => h (by
      simpa [Pool.grantsFlow, State.HasBufferFor, State.held] using hg)
    rw [State.grantFlow, if_neg hg]
  simp only [State.acceptFrame, hn]

/-- R2: a frame that an OPEN flow takes. -/
theorem acceptFrame_taken {s : State} {f : FlowId} (h : s.HasBufferFor f) (he : s.engine.executing = none)
    (frame : Frame) :
    ∃ armed n, s.acceptFrame f frame = { s with
        flows := writeAt s.flows f { s.flow f with sendQueue := (s.flow f).sendQueue ++ [frame] }
        pool := { s.pool.chargeFlow f with lowArmed := armed }
        notices := n
        flowCounters := writeAt s.flowCounters f { readAt s.flowCounters f with
          txAccepted := (readAt s.flowCounters f).txAccepted + 1 } } ∧
      s.LowPoolTested { s.pool.chargeFlow f with lowArmed := armed } n := by
  obtain ⟨armed, n, e, ht⟩ := grantFlow_of_hasBuffer h he
  refine ⟨armed, n, ?_, ht⟩
  rw [State.acceptFrame, e]
  rfl

theorem entryAction_opened {s : State} {e : ClassEntry} {f : FlowId} (ha : e.action = .flow f)
    (hs : (s.flow f).state = .opened) (frame : Frame) : s.entryAction e frame = s.acceptFrame f frame := by
  simp only [State.entryAction, ha]
  rw [State.offerFrame, if_pos hs]

theorem entryAction_diverted {s : State} {e : ClassEntry} {f : FlowId} (ha : e.action = .flow f)
    (hs : (s.flow f).state ≠ .opened) {fallback : PlainAction} (hfb : e.fallback = some fallback) (frame : Frame) :
    s.entryAction e frame =
      (s.countFlow f fun c => { c with txDiverted := c.txDiverted + 1 }).plainAction fallback frame := by
  simp only [State.entryAction, ha, hfb, Option.getD_some]
  rw [State.offerFrame, if_neg hs]

theorem entryAction_bulk {s : State} {e : ClassEntry} {cls : PortClass} (ha : e.action = .bulk cls)
    (frame : Frame) : s.entryAction e frame = s.bulkPath cls frame := by
  simp only [State.entryAction, ha]

theorem entryAction_discard {s : State} {e : ClassEntry} (ha : e.action = .discard) (frame : Frame) :
    s.entryAction e frame = s := by
  simp only [State.entryAction, ha]

theorem bulkPath_dropped {s : State} (h : ¬ s.HasBulkRoom) (cls : PortClass) (frame : Frame) :
    s.bulkPath cls frame = s.countBulkDropped := by
  unfold State.bulkPath
  split
  · next hp =>
    have hn : s.grantBulk = none := by
      have hg : ¬ s.pool.grantsBulk s.params.bulkCap = true := fun hg => h ⟨hp, by
        simpa [Pool.grantsBulk] using hg⟩
      rw [State.grantBulk, if_neg hg]
    rw [hn]
  · rfl

/-- R97, R111: a frame that the bulk path takes. -/
theorem bulkPath_taken {s : State} (h : s.HasBulkRoom) (he : s.engine.executing = none) (cls : PortClass)
    (frame : Frame) :
    s.BulkQueued (s.bulkPath cls frame) cls frame ∧
      s.Unchanged [.pool, .link, .notices] (s.bulkPath cls frame) := by
  obtain ⟨hp, hcap, hfree⟩ := h
  obtain ⟨armed, n, e, ht⟩ := lowPoolTest_tested s
    { s.pool with free := s.pool.free - 1, bulkHeld := s.pool.bulkHeld + 1 } rfl he
  have hgrant : s.grantBulk = some { s with
      pool := { s.pool with free := s.pool.free - 1, bulkHeld := s.pool.bulkHeld + 1, lowArmed := armed }
      notices := n } := by
    rw [State.grantBulk, if_pos (by simp [Pool.grantsBulk, hcap, hfree])]
    exact congrArg some e
  have hpath : s.bulkPath cls frame = { s with
      pool := { s.pool with free := s.pool.free - 1, bulkHeld := s.pool.bulkHeld + 1, lowArmed := armed }
      link := { s.link with bulkQueue := s.link.bulkQueue ++ [⟨cls, frame⟩] }
      notices := n } := by
    rw [State.bulkPath, if_pos hp, hgrant]
    rfl
  rw [hpath]
  refine ⟨⟨rfl, rfl, rfl, rfl, rfl, ⟨n, ht, rfl⟩⟩, ?_⟩
  constructor <;> simp

/-- R97, R111: the bulk path at a state that differs from another in its counts only. -/
theorem State.BulkQueued.congr {s u t : State} {cls : PortClass} {frame : Frame} (h : s.BulkQueued t cls frame)
    (hp : s.pool = u.pool) (hl : s.link = u.link) (hpar : s.params.poolLow = u.params.poolLow)
    (hn : s.notices = u.notices) : u.BulkQueued t cls frame where
  link := hl ▸ h.link
  free := hp ▸ h.free
  bulkHeld := hp ▸ h.bulkHeld
  held := hp ▸ h.held
  reservation := hp ▸ h.reservation
  raises := h.raises.congr hp hpar hn rfl rfl

end Sys2Proof.Machine

section
open Sys2Proof Sys2Proof.Machine

/-- Settles O19: the reading of R104 and R105, the deciding entry of R108, and each outcome of its action. -/
theorem flowFrameTakenOrDiverted : Obligations.FlowFrameTakenOrDiverted := by
  refine ⟨⟨⟨fun d s _ p h => readFrame_untagged d s h p, readFrame_tagged⟩, isManagement_iff,
    fun b v => ⟨classify_eq_some_iff b v, classify_eq_none_iff b v⟩⟩, ?_, ?_, ?_⟩
  · intro s received i f hg hm hi ha hs hcap hroom he
    obtain ⟨armed, n, e, ht⟩ :=
      acceptFrame_taken (s := s.countHit i) (f := f) ⟨hcap, hroom⟩ he (checkedPart received)
    refine ⟨_, by rw [exec_wireFrameReception_decided hg hm hi, entryAction_opened (s := s.countHit i) ha hs], ?_⟩
    rw [e]
    refine ⟨readAt_writeAt_same _ _ _, fun k hk => readAt_writeAt_ne _ _ (Ne.symm hk), rfl,
      readAt_writeAt_same _ _ _, fun k hk => readAt_writeAt_ne _ _ (Ne.symm hk), rfl, rfl, rfl, rfl,
      ⟨n, ht.congr rfl rfl rfl, rfl⟩, ?_⟩
    constructor <;> simp [State.countHit]
  · intro s received i f hg hm hi ha hfb hs
    rw [exec_wireFrameReception_decided hg hm hi, entryAction_diverted (s := s.countHit i) ha hs hfb]
    rfl
  · intro s received i hg hm hi e hits dropped
    rw [exec_wireFrameReception_decided hg hm hi]
    refine ⟨fun f ha hs hb => ?_, fun f cls ha hs hfb => ⟨fun hr he => ?_, fun hr => ?_⟩, fun ha => ?_,
      fun cls ha => ⟨fun hr he => ?_, fun hr => ?_⟩⟩
    · rw [entryAction_opened (s := s.countHit i) ha hs, acceptFrame_refused (s := s.countHit i) hb]
      rfl
    · rw [entryAction_diverted (s := s.countHit i) ha hs hfb]
      obtain ⟨hq, hrest⟩ := bulkPath_taken (s := (s.countHit i).countFlow f fun c =>
        { c with txDiverted := c.txDiverted + 1 }) hr he cls (checkedPart received)
      refine ⟨_, rfl, hq.congr rfl rfl rfl rfl, hrest.hits (by simp), hrest.flowCounters (by simp),
        State.Unchanged.trans (l := [.hits, .flowCounters]) ?_ hrest (by simp +contextual)⟩
      constructor <;> simp [State.countHit]
    · rw [entryAction_diverted (s := s.countHit i) ha hs hfb]
      exact congrArg _ (congrArg _ (bulkPath_dropped (s := (s.countHit i).countFlow f fun c =>
        { c with txDiverted := c.txDiverted + 1 }) hr cls (checkedPart received)))
    · rw [entryAction_discard ha]
      rfl
    · rw [entryAction_bulk ha]
      obtain ⟨hq, hrest⟩ := bulkPath_taken (s := s.countHit i) hr he cls (checkedPart received)
      refine ⟨_, rfl, hq.congr rfl rfl rfl rfl, hrest.hits (by simp),
        State.Unchanged.trans (l := [.hits]) ?_ hrest (by simp +contextual)⟩
      constructor <;> simp [State.countHit]
    · rw [entryAction_bulk ha, bulkPath_dropped (s := s.countHit i) hr]
      rfl

end

namespace Sys2Proof.Machine

/-! ## STATUS formed at a grant (R42, R43) -/

/-- R42, R139: a STATUS grant reaches its flow with the grant no longer in transit. -/
theorem execStatusGrant_eq {s : State} {f : FlowId} (hg : s.link.grant = some (.status f)) :
    exec .statusGrant s = .next (s.declined.statusGrantAt f).finish := by
  simp only [exec, execStatusGrant, hg]
  rfl

/-- R43: position 0 of the map is never set. -/
theorem selectiveMap_zero (fl : Flow) : fl.selectiveMap.getLsbD 0 = false := by
  simp [Flow.selectiveMap]

/-- R43: position k of the map tells whether the set holds a member for E + k. -/
theorem selectiveMap_of_pos (fl : Flow) {k : Nat} (h1 : 1 ≤ k) (h63 : k ≤ 63) :
    fl.selectiveMap.getLsbD k = fl.hasMember (fl.expected + BitVec.ofNat 12 k) := by
  have hk : k < 64 := by omega
  simp [Flow.selectiveMap, hk, Nat.one_le_iff_ne_zero.1 h1]

/-- R43, R82, R136, R140: a STATUS grant at a flow that offers a STATUS. -/
theorem statusGrantAt_offered {s : State} {f : FlowId} {epoch : Epoch} (hp : s.part.state = .partnered)
    (he : s.part.ownEpoch = some epoch) (ho : (s.flow f).offersStatus = true) :
    s.declined.statusGrantAt f =
      { s.presenting .plain ⟨epoch, Flow.statusBlock f (s.flow f)⟩ with
        flows := writeAt s.flows f (s.flow f).statusSent
        link := { (s.presenting .plain ⟨epoch, Flow.statusBlock f (s.flow f)⟩).link with
          statusPosition := f + 1 } } := by
  have ho' : (s.declined.flow f).offersStatus = true := ho
  simp only [State.statusGrantAt, carrierEpoch_of_partnered hp he, ho', if_true]
  rw [present_eq, if_pos (by exact hp)]
  rfl

/-- R42, R139: a STATUS grant that finds nothing offered is declined. -/
theorem statusGrantAt_declined {s : State} {f : FlowId}
    (h : s.part.state ≠ .partnered ∨ s.part.ownEpoch = none ∨ (s.flow f).offersStatus = false) :
    s.declined.statusGrantAt f = s.declined := by
  unfold State.statusGrantAt
  split
  · rfl
  · next epoch he =>
    obtain ⟨hp, hown⟩ : s.part.state = .partnered ∧ s.part.ownEpoch = some epoch :=
      Option.ite_none_right_eq_some.1 he
    have ho : (s.declined.flow f).offersStatus = false := by
      rcases h with h | h | h
      · exact absurd hp h
      · rw [h] at hown; cases hown
      · exact h
    simp [ho]

end Sys2Proof.Machine

section
open Sys2Proof Sys2Proof.Machine

/-- Settles O27: the STATUS that a grant forms, and the grant that is declined. -/
theorem statusGrantFormsStatus : Obligations.StatusGrantFormsStatus := by
  constructor
  · intro s f epoch hg hp he hpend hsus hst
    refine ⟨(s.flow f).selectiveMap, selectiveMap_zero _, fun k h1 h63 => selectiveMap_of_pos _ h1 h63, ?_⟩
    rw [execStatusGrant_eq hg, statusGrantAt_offered hp he ((offersStatus_iff _).2 ⟨hpend, hsus, hst⟩)]
    rfl
  · intro s f hg hno
    have hdecl : s.part.state ≠ .partnered ∨ s.part.ownEpoch = none ∨ (s.flow f).offersStatus = false := by
      rw [← Bool.not_eq_true, offersStatus_iff]
      simp only [Bool.eq_false_iff, ne_eq] at hno ⊢
      tauto
    rw [execStatusGrant_eq hg, statusGrantAt_declined hdecl]

end

namespace Sys2Proof.Machine

/-! ## A DATA or an ADVANCE sorted (R28, R38) -/

theorem exec_dataReceived {s : State} {f : FlowId} {epoch : Epoch} {q : Seq} {frame : Frame}
    (h : s.Receives ⟨epoch, .data f q frame⟩) (ht : (s.flow f).takesBlocks = true) :
    exec .dataReceived s = .next (s.receiving.sortData f q frame).finish := by
  obtain ⟨rest, hl⟩ := toFlows_of_receives h
  simp only [exec, execDataReceived, hl]
  rw [ifAccepted_of_receives (b := ⟨epoch, .data f q frame⟩) h, State.dataAtFlow, if_pos (by exact ht)]

theorem exec_advanceReceived {s : State} {f : FlowId} {epoch : Epoch} {q : Seq}
    (h : s.Receives ⟨epoch, .advance f q⟩) (ht : (s.flow f).takesBlocks = true) :
    exec .advanceReceived s = .next (s.receiving.sortAdvance f q).finish := by
  obtain ⟨rest, hl⟩ := toFlows_of_receives h
  simp only [exec, execAdvanceReceived, hl]
  rw [ifAccepted_of_receives (b := ⟨epoch, .advance f q⟩) h, State.advanceAtFlow, if_pos (by exact ht)]

theorem hasMember_iff (fl : Flow) (q : Seq) : fl.hasMember q = true ↔ ∃ m ∈ fl.reorder, m.seq = q := by
  simp [Flow.hasMember]

theorem hasMember_eq_false_iff (fl : Flow) (q : Seq) :
    fl.hasMember q = false ↔ ∀ m ∈ fl.reorder, m.seq ≠ q := by
  simp [Flow.hasMember]

/-- R27: a sequence that has its place in the set is not held by it. -/
theorem hasMember_of_place {fl : Flow} {q : Seq} {before after : List Member}
    (hr : fl.reorder = before ++ after) (h : PlaceInOrder fl.expected q before after) :
    fl.hasMember q = false := by
  rw [hasMember_eq_false_iff, hr]
  rintro m hm rfl
  rcases List.mem_append.1 hm with hm | hm
  · exact lt_irrefl _ (h.nearer m hm)
  · exact lt_irrefl _ (h.farther m hm)

section
variable {s : State} {f : FlowId} {q : Seq}

theorem sortData_at (hd : seqDistance (s.flow f).expected q = 0) (frame : Frame) :
    s.sortData f q frame = s.dataInOrder f frame := by
  simp only [State.sortData, hd, if_true]

theorem sortData_early (h1 : 1 ≤ seqDistance (s.flow f).expected q)
    (hw : seqDistance (s.flow f).expected q < (s.profile f).window) (hn : (s.flow f).hasMember q = false)
    (frame : Frame) : s.sortData f q frame = s.dataEarly f q frame := by
  simp only [State.sortData, hn]
  rw [if_neg (by omega), if_pos hw]
  rfl

theorem sortData_held (h1 : 1 ≤ seqDistance (s.flow f).expected q)
    (hw : seqDistance (s.flow f).expected q < (s.profile f).window) (hm : (s.flow f).hasMember q = true)
    (frame : Frame) : s.sortData f q frame = s.dataDuplicate f := by
  simp only [State.sortData, hm]
  rw [if_neg (by omega), if_pos hw]
  rfl

theorem sortData_beyond (hw : (s.profile f).window ≤ seqDistance (s.flow f).expected q)
    (hpos : 1 ≤ (s.profile f).window) (hd : seqDistance (s.flow f).expected q ≤ 2048) (frame : Frame) :
    s.sortData f q frame = s.countOutOfWindow f := by
  simp only [State.sortData]
  rw [if_neg (by omega), if_neg (by omega), if_pos hd]

/-- R35: with a window of at most 64, a sequence before E lies beyond the out-of-window range. -/
theorem sortData_old (hw : (s.profile f).window ≤ 64) (hb : seqBefore q (s.flow f).expected = true)
    (frame : Frame) : s.sortData f q frame = s.dataDuplicate f := by
  have hd := (seqBefore_iff _ _).1 hb
  simp only [State.sortData]
  rw [if_neg (by omega), if_neg (by omega), if_neg (by omega)]

theorem sortAdvance_at (hd : seqDistance (s.flow f).expected q = 0) :
    s.sortAdvance f q = (s.advanceExpected f).setStatusPending f := by
  simp only [State.sortAdvance, hd, if_true]

theorem sortAdvance_early (h1 : 1 ≤ seqDistance (s.flow f).expected q)
    (hw : seqDistance (s.flow f).expected q < (s.profile f).window) (hn : (s.flow f).hasMember q = false) :
    s.sortAdvance f q = (s.insertMember f ⟨q, .skip⟩).setStatusPending f := by
  simp only [State.sortAdvance, hn]
  rw [if_neg (by omega), if_pos hw]
  rfl

theorem sortAdvance_held (h1 : 1 ≤ seqDistance (s.flow f).expected q)
    (hw : seqDistance (s.flow f).expected q < (s.profile f).window) (hm : (s.flow f).hasMember q = true) :
    s.sortAdvance f q = s.setStatusPending f := by
  simp only [State.sortAdvance, hm]
  rw [if_neg (by omega), if_pos hw]
  rfl

theorem sortAdvance_beyond (hw : (s.profile f).window ≤ seqDistance (s.flow f).expected q)
    (hpos : 1 ≤ (s.profile f).window) (hd : seqDistance (s.flow f).expected q ≤ 2048) :
    s.sortAdvance f q = (s.countOutOfWindow f).setStatusPending f := by
  simp only [State.sortAdvance]
  rw [if_neg (by omega), if_neg (by omega), if_pos hd]

/-- R38: with a window of at most 64, a sequence before E lies beyond the out-of-window range. -/
theorem sortAdvance_old (hw : (s.profile f).window ≤ 64) (hb : seqBefore q (s.flow f).expected = true) :
    s.sortAdvance f q = s.setStatusPending f := by
  have hd := (seqBefore_iff _ _).1 hb
  simp only [State.sortAdvance]
  rw [if_neg (by omega), if_neg (by omega), if_neg (by omega)]

end

/-! ## The run behind E and a member that joins (R27, R30) -/

/-- R29, R31, R38: E passes its sequence and the run of members behind it. -/
theorem advance_eq {fl : Flow} {run rest : List Member} (hr : fl.reorder = run ++ rest)
    (h : ContiguousRun (fl.expected + 1) run rest) :
    fl.advance = ⟨fl.expected + 1 + BitVec.ofNat 12 run.length, rest, framesOf run, run.length⟩ := by
  rw [Flow.advance, hr, inOrderRun_eq h]

/-- R30: a run that is not empty sets status pending. -/
theorem afterRun_advance_eq {fl : Flow} {run rest : List Member} (hr : fl.reorder = run ++ rest)
    (h : ContiguousRun (fl.expected + 1) run rest) :
    fl.afterRun fl.advance = { fl with
      expected := fl.expected + 1 + BitVec.ofNat 12 run.length
      reorder := rest
      statusPending := fl.statusPending || decide (run ≠ []) } := by
  simp only [advance_eq hr h, Flow.afterRun, List.length_pos_iff]

/-- R30, R37: a flow after the run behind E, with frames placed on the wire egress. -/
theorem deliverAll_afterRun {s : State} {f : FlowId} {run rest : List Member}
    (hr : (s.flow f).reorder = run ++ rest) (h : ContiguousRun ((s.flow f).expected + 1) run rest)
    (frames : List Frame) :
    (s.modifyFlow f (·.afterRun (s.flow f).advance)).deliverAll f frames = { s with
      flows := writeAt s.flows f { s.flow f with
        expected := (s.flow f).expected + 1 + BitVec.ofNat 12 run.length
        reorder := rest
        statusPending := (s.flow f).statusPending || decide (run ≠ []) }
      wire := s.wire.placeAll (s.profile f).wireClass (frames.map (⟨.flow f, ·⟩))
      flowCounters := writeAt s.flowCounters f { readAt s.flowCounters f with
        rxDelivered := (readAt s.flowCounters f).rxDelivered + BitVec.ofNat 32 frames.length } } := by
  rw [deliverAll_eq, State.modifyFlow, afterRun_advance_eq hr h]
  rfl

/-- R30, R38: E passes its sequence, and the run behind it is delivered. -/
theorem advanceExpected_eq {s : State} {f : FlowId} {run rest : List Member}
    (hr : (s.flow f).reorder = run ++ rest) (h : ContiguousRun ((s.flow f).expected + 1) run rest) :
    s.advanceExpected f = (s.modifyFlow f (·.afterRun (s.flow f).advance)).deliverAll f (framesOf run) := by
  simp only [State.advanceExpected, advance_eq hr h]

/-- R29, R31, R37: a frame delivered at E stands before those of the run behind it. -/
theorem deliver_advanceExpected {s : State} {f : FlowId} {run rest : List Member}
    (hr : (s.flow f).reorder = run ++ rest) (h : ContiguousRun ((s.flow f).expected + 1) run rest)
    (frame : Frame) :
    (s.deliver f frame).advanceExpected f =
      (s.modifyFlow f (·.afterRun (s.flow f).advance)).deliverAll f (frame :: framesOf run) := by
  simp only [advance_eq hr h]
  rw [State.advanceExpected, show ((s.deliver f frame).flow f).advance = _ from advance_eq hr h]
  rfl

/-- R27, R32, R33, R38: a member joins a flow's set at its place, and a STATUS becomes pending. -/
theorem insertMember_setStatusPending {s : State} {f : FlowId} {m : Member} {before after : List Member}
    (hr : (s.flow f).reorder = before ++ after)
    (h : PlaceInOrder (s.flow f).expected m.seq before after) :
    (s.insertMember f m).setStatusPending f = { s with
      flows := writeAt s.flows f { s.flow f with
        reorder := before ++ m :: after, statusPending := true } } := by
  rw [State.insertMember, State.setStatusPending, State.modifyFlow, flow_modifyFlow_same, modifyFlow_flows,
    writeAt_writeAt, hr, insertMember_eq h]
  rfl

/-! ## A DATA stored (R29 to R33, R40, R41, R96) -/

/-- R92, R96: the pool after a buffer has been charged to a flow, in the terms of Safety.lean. -/
theorem bufferTaken_of_charged {s t : State} {f : FlowId} {armed : Bool}
    (h : t.pool = { s.pool.chargeFlow f with lowArmed := armed }) : s.BufferTaken t f where
  free := by rw [h]; rfl
  held := by simp [State.held, h, Pool.chargeFlow]
  heldOthers k hk := by
    simp only [State.held, h, Pool.chargeFlow]
    rw [readAt_writeAt_ne _ _ (Ne.symm hk)]
  reservation := by rw [h]; rfl
  bulkHeld := by rw [h]; rfl

theorem dataInOrder_granted {s u : State} {f : FlowId} (hg : s.grantFlow f = some u) (frame : Frame) :
    s.dataInOrder f frame = ((u.deliver f frame).advanceExpected f).acceptData f := by
  simp only [State.dataInOrder, hg]

theorem dataEarly_granted_inOrder {s u : State} {f : FlowId} (hg : s.grantFlow f = some u)
    (ho : (u.profile f).order = .inOrder) (q : Seq) (frame : Frame) :
    s.dataEarly f q frame = ((u.insertMember f ⟨q, .frame frame⟩).setStatusPending f).acceptData f := by
  simp only [State.dataEarly, hg, ho]

theorem dataEarly_granted_arrival {s u : State} {f : FlowId} (hg : s.grantFlow f = some u)
    (ho : (u.profile f).order = .arrival) (q : Seq) (frame : Frame) :
    s.dataEarly f q frame =
      (((u.deliver f frame).insertMember f ⟨q, .delivered⟩).setStatusPending f).acceptData f := by
  simp only [State.dataEarly, hg, ho]

/-- R29, R31: a DATA at E with a buffer to be had. -/
theorem dataInOrder_stored {s : State} {f : FlowId} (hb : s.HasBufferFor f) (he : s.engine.executing = none)
    {run rest : List Member} (hr : (s.flow f).reorder = run ++ rest)
    (h : ContiguousRun ((s.flow f).expected + 1) run rest) (frame : Frame) :
    ∃ armed n, s.dataInOrder f frame = { s with
        flows := writeAt s.flows f (Flow.counted { s.flow f with
          expected := (s.flow f).expected + 1 + BitVec.ofNat 12 run.length, reorder := rest }
          (s.profile f) (run ≠ []))
        pool := { s.pool.chargeFlow f with lowArmed := armed }
        wire := s.wire.placeAll (s.profile f).wireClass ((frame :: framesOf run).map (⟨.flow f, ·⟩))
        flowCounters := writeAt s.flowCounters f { readAt s.flowCounters f with
          rxDelivered := (readAt s.flowCounters f).rxDelivered + BitVec.ofNat 32 (1 + (framesOf run).length) }
        notices := n } ∧
      s.LowPoolTested { s.pool.chargeFlow f with lowArmed := armed } n := by
  obtain ⟨armed, n, hgrant, htest⟩ := grantFlow_of_hasBuffer hb he
  refine ⟨armed, n, ?_, htest⟩
  rw [dataInOrder_granted hgrant, deliver_advanceExpected (by exact hr) (by exact h),
    deliverAll_afterRun (by exact hr) (by exact h), State.acceptData, State.modifyFlow, ← acceptData_eq,
    Nat.add_comm 1]
  simp [State.flow, State.profile]

/-- R27, R32, R33, R40, R41: an early member joins, and its DATA counts as accepted. -/
theorem acceptData_joined {s : State} {f : FlowId} {m : Member} {before after : List Member}
    (hr : (s.flow f).reorder = before ++ after)
    (h : PlaceInOrder (s.flow f).expected m.seq before after) :
    ((s.insertMember f m).setStatusPending f).acceptData f = { s with
      flows := writeAt s.flows f
        (Flow.counted { s.flow f with reorder := before ++ m :: after } (s.profile f) true) } := by
  rw [insertMember_setStatusPending hr h, State.acceptData, State.modifyFlow, ← acceptData_eq]
  simp [State.flow, State.profile]

/-- R32: an early DATA in IN_ORDER mode with a buffer to be had. -/
theorem dataEarly_held {s : State} {f : FlowId} (hb : s.HasBufferFor f) (he : s.engine.executing = none)
    (ho : (s.profile f).order = .inOrder) {q : Seq} {before after : List Member}
    (hr : (s.flow f).reorder = before ++ after)
    (h : PlaceInOrder (s.flow f).expected q before after) (frame : Frame) :
    ∃ armed n, s.dataEarly f q frame = { s with
        flows := writeAt s.flows f (Flow.counted { s.flow f with
          reorder := before ++ ⟨q, .frame frame⟩ :: after } (s.profile f) true)
        pool := { s.pool.chargeFlow f with lowArmed := armed }
        notices := n } ∧
      s.LowPoolTested { s.pool.chargeFlow f with lowArmed := armed } n := by
  obtain ⟨armed, n, hgrant, htest⟩ := grantFlow_of_hasBuffer hb he
  refine ⟨armed, n, ?_, htest⟩
  rw [dataEarly_granted_inOrder hgrant ho]
  exact acceptData_joined (by exact hr) (by exact h)

/-- R33: an early DATA in ARRIVAL mode with a buffer to be had. -/
theorem dataEarly_delivered {s : State} {f : FlowId} (hb : s.HasBufferFor f)
    (he : s.engine.executing = none) (ho : (s.profile f).order = .arrival) {q : Seq}
    {before after : List Member} (hr : (s.flow f).reorder = before ++ after)
    (h : PlaceInOrder (s.flow f).expected q before after) (frame : Frame) :
    ∃ armed n, s.dataEarly f q frame = { s with
        flows := writeAt s.flows f (Flow.counted { s.flow f with
          reorder := before ++ ⟨q, .delivered⟩ :: after } (s.profile f) true)
        pool := { s.pool.chargeFlow f with lowArmed := armed }
        wire := s.wire.placeAll (s.profile f).wireClass [⟨.flow f, frame⟩]
        flowCounters := writeAt s.flowCounters f { readAt s.flowCounters f with
          rxDelivered := (readAt s.flowCounters f).rxDelivered + 1 }
        notices := n } ∧
      s.LowPoolTested { s.pool.chargeFlow f with lowArmed := armed } n := by
  obtain ⟨armed, n, hgrant, htest⟩ := grantFlow_of_hasBuffer hb he
  refine ⟨armed, n, ?_, htest⟩
  rw [dataEarly_granted_arrival hgrant ho]
  exact acceptData_joined (by exact hr) (by exact h)

end Sys2Proof.Machine

section
open Sys2Proof Sys2Proof.Machine

/-- Settles O30: the DATA at E with its run, in either order mode. -/
theorem dataInOrderDelivered : Obligations.DataInOrderDelivered := by
  intro s f epoch frame run rest hrec hst hb he hr hrun fl p
  obtain ⟨armed, n, e, htest⟩ := dataInOrder_stored (s := s.receiving) hb he hr hrun frame
  refine ⟨_, by rw [exec_dataReceived hrec (takesBlocks_of hst),
    sortData_at (s := s.receiving) (q := (s.flow f).expected) (seqDistance_self _), e], ?_⟩
  refine ⟨readAt_writeAt_same _ _ _, fun k hk => readAt_writeAt_ne _ _ (Ne.symm hk), bufferTaken_of_charged rfl,
    rfl, placeAll_placed _ _ _, ⟨n, htest.congr rfl rfl rfl, rfl⟩, ?_⟩
  constructor <;> simp

/-- Settles O31: an early DATA joins the set, and is delivered at once in ARRIVAL mode. -/
theorem earlyDataHeld : Obligations.EarlyDataHeld := by
  intro s f epoch q frame before after hrec hst h1 hw hb he hr hplace fl p
  have hexec : exec .dataReceived s = .next (s.receiving.dataEarly f q frame).finish := by
    rw [exec_dataReceived hrec (takesBlocks_of hst),
      sortData_early (s := s.receiving) h1 hw (hasMember_of_place hr hplace)]
  constructor
  · intro ho
    obtain ⟨armed, n, e, htest⟩ := dataEarly_held (s := s.receiving) hb he ho hr hplace frame
    refine ⟨_, by rw [hexec, e], ?_⟩
    refine ⟨readAt_writeAt_same _ _ _, fun k hk => readAt_writeAt_ne _ _ (Ne.symm hk),
      bufferTaken_of_charged rfl, ⟨n, htest.congr rfl rfl rfl, rfl⟩, ?_⟩
    constructor <;> simp
  · intro ho
    obtain ⟨armed, n, e, htest⟩ := dataEarly_delivered (s := s.receiving) hb he ho hr hplace frame
    refine ⟨_, by rw [hexec, e], ?_⟩
    refine ⟨readAt_writeAt_same _ _ _, fun k hk => readAt_writeAt_ne _ _ (Ne.symm hk),
      bufferTaken_of_charged rfl, rfl, placeAll_placed _ _ _, ⟨n, htest.congr rfl rfl rfl, rfl⟩, ?_⟩
    constructor <;> simp

end

namespace Sys2Proof.Machine

/-! ## A DATA that is not stored (R29, R34 to R36) -/

/-- R96: a request for a buffer that the pool does not have is refused. -/
theorem grantFlow_of_noBuffer {s : State} {f : FlowId} (h : ¬ s.HasBufferFor f) : s.grantFlow f = none := by
  have hg : ¬ s.pool.grantsFlow f (s.profile f).cap = true := fun hg => h (by
    simpa [Pool.grantsFlow, State.HasBufferFor, State.held] using hg)
  rw [State.grantFlow, if_neg hg]

/-- R29, R31, R32, R33: a DATA inside the window that the set does not hold, with no buffer to be had. -/
theorem sortData_refused {s : State} {f : FlowId} {q : Seq}
    (hw : seqDistance (s.flow f).expected q < (s.profile f).window) (hn : (s.flow f).hasMember q = false)
    (hb : ¬ s.HasBufferFor f) (frame : Frame) : s.sortData f q frame = s.countRxRefused f := by
  rcases Nat.eq_zero_or_pos (seqDistance (s.flow f).expected q) with hd | hd
  · rw [sortData_at hd, State.dataInOrder, grantFlow_of_noBuffer hb]
  · rw [sortData_early hd hw hn, State.dataEarly, grantFlow_of_noBuffer hb]

end Sys2Proof.Machine

section
open Sys2Proof Sys2Proof.Machine

/-- Settles O32: each DATA that is not stored, with its count. -/
theorem unstoredDataCounted : Obligations.UnstoredDataCounted := by
  intro s f epoch q frame hrec hst hpos h64 fl d w c
  rw [exec_dataReceived hrec (takesBlocks_of hst)]
  refine ⟨fun hdup => ?_, fun hlow hhigh => ?_, fun hlt hn hb => ?_⟩
  · have hsort : s.receiving.sortData f q frame = s.receiving.dataDuplicate f := by
      rcases hdup with ⟨h1, hlt, hm⟩ | hold
      · exact sortData_held (s := s.receiving) h1 hlt ((hasMember_iff _ _).2 hm) frame
      · exact sortData_old (s := s.receiving) h64 hold frame
    rw [hsort]
    rfl
  · rw [sortData_beyond (s := s.receiving) hlow hpos hhigh]
    rfl
  · rw [sortData_refused (s := s.receiving) hlt ((hasMember_eq_false_iff _ _).2 hn) hb]
    rfl

/-- Settles O33: the five cases of R38. -/
theorem advancePasses : Obligations.AdvancePasses := by
  intro s f epoch q before after hrec hst hpos h64 hr fl p d c
  rw [exec_advanceReceived hrec (takesBlocks_of hst)]
  refine ⟨fun hq hrun => ?_, fun h1 hlt hplace => ?_, fun hignored => ?_, fun hlow hhigh => ?_⟩
  · refine ⟨_, by rw [sortAdvance_at (s := s.receiving) (hq ▸ seqDistance_self _),
      advanceExpected_eq (s := s.receiving) hr hrun, deliverAll_afterRun (s := s.receiving) hr hrun,
      State.setStatusPending, State.modifyFlow], ?_⟩
    refine ⟨?_, fun k hk => ?_, rfl, placeAll_placed _ _ _, ?_⟩
    · simp [State.flow, State.receiving, fl]
    · simp only [State.flow, writeAt_writeAt]
      exact readAt_writeAt_ne _ _ (Ne.symm hk)
    · constructor <;> simp
  · rw [sortAdvance_early (s := s.receiving) h1 hlt (hasMember_of_place hr hplace),
      insertMember_setStatusPending (s := s.receiving) (m := ⟨q, .skip⟩) hr hplace]
    rfl
  · have hsort : s.receiving.sortAdvance f q = s.receiving.setStatusPending f := by
      rcases hignored with ⟨h1, hlt, hm⟩ | hold
      · exact sortAdvance_held (s := s.receiving) h1 hlt ((hasMember_iff _ _).2 hm)
      · exact sortAdvance_old (s := s.receiving) h64 hold
    rw [hsort]
    rfl
  · rw [sortAdvance_beyond (s := s.receiving) hlow hpos hhigh]
    rfl

end

namespace Sys2Proof.Machine

/-! ## The partnership after a shared operation -/

@[simp] theorem complete_part (s : State) (d : Option Deferred) (o : DeferredCode → Completion × Option Detail) :
    (s.complete d o).part = s.part := by
  obtain ⟨n, e⟩ := complete_eq s d o
  rw [e]

@[simp] theorem lowPoolTest_part (s : State) (before : Nat) : (s.lowPoolTest before).part = s.part := by
  obtain ⟨a, n, e⟩ := lowPoolTest_eq s before
  rw [e]

@[simp] theorem releaseFlow_part (s : State) (f : FlowId) (k : Nat) : (s.releaseFlow f k).part = s.part := by
  simp [State.releaseFlow]

@[simp] theorem releaseBulk_part (s : State) : s.releaseBulk.part = s.part := by
  simp [State.releaseBulk]

@[simp] theorem releaseAccount_part (s : State) (a : Account) : (s.releaseAccount a).part = s.part := by
  cases a <;> simp [State.releaseAccount]

theorem grantFlow_part {s t : State} {f : FlowId} (h : s.grantFlow f = some t) : t.part = s.part := by
  obtain ⟨-, a, n, rfl⟩ := grantFlow_some h
  rfl

theorem grantBulk_part {s t : State} (h : s.grantBulk = some t) : t.part = s.part := by
  obtain ⟨-, a, n, rfl⟩ := grantBulk_some h
  rfl

theorem prepareOpening_part {s t : State} {f : FlowId} (h : s.prepareOpening f = some t) : t.part = s.part := by
  obtain ⟨u, hu, rfl⟩ := Option.map_eq_some_iff.1 h
  obtain ⟨-, a, n, rfl⟩ := reserveFlow_some hu
  rfl

@[simp] theorem completeDeferred_part (s : State) (f : FlowId) (o : Completion) :
    (s.completeDeferred f o).part = s.part := by
  simp [State.completeDeferred]

@[simp] theorem endFlow_part (s : State) (f : FlowId) (new : FlowState) (cause : FlowCause)
    (failure : Option FailureCause) (keep : Bool) (o : DeferredCode → Completion × Option Detail) :
    (s.endFlow f new cause failure keep o).part = s.part := by
  obtain ⟨a, n, e⟩ := endFlow_eq s f new cause failure keep o
  rw [e]

@[simp] theorem placeClass_part (s : State) (cls : PortClass) (item : WireItem) :
    (s.placeClass cls item).part = s.part := rfl

@[simp] theorem deliverAll_part (s : State) (f : FlowId) (frames : List Frame) :
    (s.deliverAll f frames).part = s.part := by
  rw [deliverAll_eq]

@[simp] theorem placeReply_part (s : State) (origin : Origin) (item : ReplyItem) :
    (s.placeReply origin item).part = s.part := by
  obtain ⟨w, r, e, -⟩ := placeReply_eq s origin item
  rw [e]

@[simp] theorem finish_part (s : State) : s.finish.part = s.part := by
  obtain ⟨ns, w, r, g, e⟩ := finish_eq s
  rw [e]

@[simp] theorem answerAtIntake_part (s : State) (origin : Origin) (frame : Frame) :
    (s.answerAtIntake origin frame).part = s.part := by
  unfold State.answerAtIntake
  split
  · simp
  · rfl

@[simp] theorem admitRequest_part (s : State) (r : Request) : (s.admitRequest r).part = s.part := by
  unfold State.admitRequest State.enqueue
  split
  · simp
  · split
    · simp
    · split
      · rfl
      · split <;> simp

/-- R149 to R151: intake leaves the partnership alone. -/
@[simp] theorem intake_part (s : State) (origin : Origin) (v : FrameView) : (s.intake origin v).part = s.part := by
  unfold State.intake
  split
  · rfl
  · split
    · rfl
    · simp

@[simp] theorem bulkPath_part (s : State) (cls : PortClass) (frame : Frame) :
    (s.bulkPath cls frame).part = s.part := by
  unfold State.bulkPath
  split
  · split
    · next t ht => exact (modifyLink_part _ _).trans (grantBulk_part ht)
    · rfl
  · rfl

@[simp] theorem plainAction_part (s : State) (action : PlainAction) (frame : Frame) :
    (s.plainAction action frame).part = s.part := by
  cases action
  · rfl
  · exact bulkPath_part s _ frame

@[simp] theorem bulkAtPath_part (s : State) (cls : PortClass) (frame : Frame) :
    (s.bulkAtPath cls frame).part = s.part := by
  unfold State.bulkAtPath
  simp only
  split
  · simp
  · split
    · next t ht => exact (placeClass_part ..).trans (grantBulk_part ht)
    · rfl

@[simp] theorem deliverBlock_part (s : State) (received : List Byte) (bad : Bool) :
    (s.deliverBlock received bad).part = s.part := by
  unfold State.deliverBlock
  split
  · rfl
  · split <;> rfl

@[simp] theorem answerRequest_part (s : State) (r : Request) (a : Answer) :
    (s.answerRequest r a).part = s.part := by
  obtain ⟨w, replies, e, -⟩ := answerRequest_eq s r a
  rw [e]

@[simp] theorem refuseUnbound_part (s : State) (r : Request) : (s.refuseUnbound r).part = s.part := by
  simp [State.refuseUnbound, State.respond]

theorem completeJoin_part (s : State) (o : Completion) :
    (s.completeJoin o).part = { s.part with deferredJoin := none } := by
  obtain ⟨n, e⟩ := completeJoin_eq s o
  rw [e]

@[simp] theorem discardPending_part (s : State) : s.discardPending.part = s.part := by
  rw [discardPending_eq]

theorem present_part (s : State) (b : LinkBlock) (owner : LinkOwner) :
    (s.present b owner).part = if s.part.state = .partnered then
      { s.part with keepaliveTimer := .running s.params.keepaliveInterval } else s.part := by
  rw [present_eq]

/-! ## Where a flow may be (R52, R66, R67, R77) -/

/-- Where a flow may be is read off its state and its suspension mark. -/
theorem Flow.fits.congr {fl fl' : Flow} {p : LinkState} (h : fl.fits p) (hs : fl'.state = fl.state)
    (hsus : fl'.suspended = fl.suspended) : fl'.fits p := by
  cases p <;> simpa only [Flow.fits, Flow.inUse, hs, hsus] using h

/-- A flow that is not in use and not suspended may stand in every partnership state. -/
theorem Flow.fits_of_rest {fl : Flow} (hu : fl.inUse = false) (hs : fl.suspended = false) (p : LinkState) :
    fl.fits p := by
  cases p with
  | silent | joining => exact ⟨hu, hs⟩
  | partnered => exact hs
  | lost => exact ⟨fun ho => by simp [Flow.inUse, ho] at hu, hs.trans hu.symm⟩

/-- Only a flow in use is ever suspended. -/
theorem Flow.fits.unsuspended {fl : Flow} {p : LinkState} (h : fl.fits p) (hu : fl.inUse = false) :
    fl.suspended = false := by
  cases p with
  | silent | joining => exact h.2
  | partnered => exact h
  | lost => exact h.2.trans hu

/-- Flows in use stand only in PARTNERED and LOST. -/
theorem Flow.fits.link_of_inUse {fl : Flow} {p : LinkState} (h : fl.fits p) (hu : fl.inUse = true) :
    p = .partnered ∨ p = .lost := by
  cases p with
  | silent | joining => exact absurd h.1 (by simp [hu])
  | partnered => exact .inl rfl
  | lost => exact .inr rfl

/-- A flow in use that is not suspended shows the partnership PARTNERED. -/
theorem Flow.fits.partnered_of_running {fl : Flow} {p : LinkState} (h : fl.fits p) (hu : fl.inUse = true)
    (hs : fl.suspended = false) : p = .partnered := by
  rcases h.link_of_inUse hu with rfl | rfl
  · rfl
  · exact absurd (h.2.symm.trans hs) (by simp [hu])

/-- R51: a flow that has entered CLOSED or FAILED may stand anywhere. -/
theorem Flow.ended_fits (fl : Flow) {new : FlowState} (hn : new = .closed ∨ new = .failed)
    (failure : Option FailureCause) (keep : Bool) (p : LinkState) : (fl.ended new failure keep).fits p :=
  Flow.fits_of_rest ((Flow.inUse_eq_false_iff _).2 hn) rfl p

/-- R66: what a PARTNERED flow becomes when the partner is lost. -/
theorem Flow.lost_fits {fl : Flow} (h : fl.fits .partnered) : fl.lost.fits .lost := by
  have hs : fl.suspended = false := h
  unfold Flow.lost
  cases hst : fl.state with
  | opening => exact fl.ended_fits (.inl rfl) none false _
  | opened | draining | closing => simp [Flow.fits, Flow.inUse]
  | closed | failed => exact Flow.fits_of_rest (by simp [Flow.inUse, hst]) hs _

/-- R68: what a flow becomes at a partner restart or a hold expiry. -/
theorem Flow.partnershipEnded_fits {fl : Flow} {p : LinkState} (h : fl.fits p) (failure : FailureCause)
    (q : LinkState) : (fl.partnershipEnded failure).fits q := by
  unfold Flow.partnershipEnded
  cases hst : fl.state with
  | opening => exact fl.ended_fits (.inl rfl) _ _ _
  | opened | draining | closing => exact fl.ended_fits (.inr rfl) _ _ _
  | closed | failed =>
    have hu : fl.inUse = false := by simp [Flow.inUse, hst]
    exact Flow.fits_of_rest hu (h.unsuspended hu) _

/-- R69: what a flow becomes when either end leaves. -/
theorem Flow.left_fits {fl : Flow} {p : LinkState} (h : fl.fits p) {new : FlowState}
    (hn : new = .closed ∨ new = .failed) (failure : Option FailureCause) (q : LinkState) :
    (fl.left new failure).fits q := by
  unfold Flow.left
  split
  · exact fl.ended_fits hn _ _ _
  · next hu => exact Flow.fits_of_rest (by simpa using hu) (h.unsuspended (by simpa using hu)) _

/-! ## The partnership laws through one operation -/

/-- The laws read the partnership, and each flow's state and suspension mark, only. -/
theorem State.PartnershipLaws.places {s t : State} (h : s.PartnershipLaws) (hp : t.part = s.part)
    (hf : ∀ f, (t.flow f).state = (s.flow f).state ∧ (t.flow f).suspended = (s.flow f).suspended) :
    t.PartnershipLaws where
  ordered := hp ▸ h.ordered
  flows f := hp ▸ (h.flows f).congr (hf f).1 (hf f).2

theorem State.PartnershipLaws.congr {s t : State} (h : s.PartnershipLaws) (hp : t.part = s.part)
    (hf : t.flows = s.flows) : t.PartnershipLaws :=
  h.places hp fun f => by simp only [State.flow, hf, and_self]

/-- A change of one flow's context to one that may stand in the partnership state. -/
theorem State.PartnershipLaws.set {s t : State} (h : s.PartnershipLaws) {f : FlowId} {fl : Flow}
    (hp : t.part = s.part) (hf : t.flows = writeAt s.flows f fl) (hfit : fl.fits s.part.state) :
    t.PartnershipLaws where
  ordered := hp ▸ h.ordered
  flows k := by
    rw [hp, State.flow, hf, readAt_writeAt]
    split
    · exact hfit
    · exact h.flows k

theorem State.PartnershipLaws.modifyFlow {s : State} (h : s.PartnershipLaws) {f : FlowId} {g : Flow → Flow}
    (hs : (g (s.flow f)).state = (s.flow f).state)
    (hsus : (g (s.flow f)).suspended = (s.flow f).suspended) : (s.modifyFlow f g).PartnershipLaws :=
  h.set rfl rfl ((h.flows f).congr hs hsus)

/-- A change of the partnership within its state. -/
theorem State.PartnershipLaws.modifyPart {s : State} (h : s.PartnershipLaws) {g : Partnership → Partnership}
    (hs : (g s.part).state = s.part.state) (ho : (g s.part).ordered) : (s.modifyPart g).PartnershipLaws where
  ordered := ho
  flows f := by
    rw [modifyPart_part, hs]
    exact h.flows f

theorem State.PartnershipLaws.modifyLink {s : State} (h : s.PartnershipLaws) (g : LinkPort → LinkPort) :
    (s.modifyLink g).PartnershipLaws := h.congr rfl rfl

theorem State.PartnershipLaws.finish {s : State} (h : s.PartnershipLaws) : s.finish.PartnershipLaws :=
  h.congr (finish_part s) (finish_kept s).1

theorem State.PartnershipLaws.makePending {s : State} (h : s.PartnershipLaws) (f : FlowId)
    (b : LifecycleBlock) : (s.makePending f b).PartnershipLaws :=
  State.PartnershipLaws.modifyLink (h.modifyFlow rfl rfl) _

/-- R51: an entry to CLOSED or FAILED. -/
theorem State.PartnershipLaws.endFlow {s : State} (h : s.PartnershipLaws) (f : FlowId) {new : FlowState}
    (hn : new = .closed ∨ new = .failed) (cause : FlowCause) (failure : Option FailureCause) (keep : Bool)
    (o : DeferredCode → Completion × Option Detail) :
    (s.endFlow f new cause failure keep o).PartnershipLaws :=
  h.set (endFlow_part ..) (endFlow_kept ..).1 (Flow.ended_fits _ hn _ _ _)

/-! ## The laws while PARTNERED -/

/-- The laws in a state that is PARTNERED, where all they ask of a flow is that it is not suspended. -/
structure State.Running (s : State) : Prop where
  laws : s.PartnershipLaws
  partnered : s.part.state = .partnered

theorem State.Running.unsuspended {s : State} (h : s.Running) (f : FlowId) : (s.flow f).suspended = false := by
  have hf := h.laws.flows f
  rw [h.partnered] at hf
  exact hf

theorem State.Running.congr {s t : State} (h : s.Running) (hp : t.part = s.part) (hf : t.flows = s.flows) :
    t.Running := ⟨h.laws.congr hp hf, hp ▸ h.partnered⟩

theorem State.Running.set {s t : State} (h : s.Running) {f : FlowId} {fl : Flow} (hp : t.part = s.part)
    (hf : t.flows = writeAt s.flows f fl) (hs : fl.suspended = false) : t.Running :=
  ⟨h.laws.set hp hf (h.partnered ▸ hs), hp ▸ h.partnered⟩

theorem State.Running.modifyFlow {s : State} (h : s.Running) {f : FlowId} {g : Flow → Flow}
    (hs : (g (s.flow f)).suspended = false) : (s.modifyFlow f g).Running := h.set rfl rfl hs

theorem State.Running.modifyLink {s : State} (h : s.Running) (g : LinkPort → LinkPort) :
    (s.modifyLink g).Running := h.congr rfl rfl

theorem State.Running.makePending {s : State} (h : s.Running) (f : FlowId) (b : LifecycleBlock) :
    (s.makePending f b).Running := h.set rfl rfl (h.unsuspended f)

theorem State.Running.clearPending {s : State} (h : s.Running) (f : FlowId) : (s.clearPending f).Running :=
  h.set rfl rfl (h.unsuspended f)

theorem State.Running.changeFlowState {s : State} (h : s.Running) (f : FlowId) (new : FlowState)
    (cause : FlowCause) : (s.changeFlowState f new cause).Running := h.set rfl rfl (h.unsuspended f)

theorem State.Running.completeDeferred {s : State} (h : s.Running) (f : FlowId) (o : Completion) :
    (s.completeDeferred f o).Running :=
  h.set (completeDeferred_part ..) (completeDeferred_kept ..).1 (h.unsuspended f)

theorem State.Running.endFlow {s : State} (h : s.Running) (f : FlowId) (new : FlowState) (cause : FlowCause)
    (failure : Option FailureCause) (keep : Bool) (o : DeferredCode → Completion × Option Detail) :
    (s.endFlow f new cause failure keep o).Running :=
  h.set (endFlow_part ..) (endFlow_kept ..).1 rfl

/-- R58: the completion of a drain changes one flow's context and the partnership not at all. -/
theorem completeDrain_place (s : State) (f : FlowId) :
    (s.completeDrain f).part = s.part ∧ ∃ fl, (s.completeDrain f).flows = writeAt s.flows f fl ∧
      (fl.suspended = (s.flow f).suspended ∨ fl.suspended = false) := by
  have same : s.flows = writeAt s.flows f (s.flow f) := (writeAt_readAt s.flows f).symm
  unfold State.completeDrain
  split
  · split
    · exact ⟨rfl, { s.flow f with
        pendingBlock := some .close, attempts := 0, retxTimer := .stopped, drainOrigin := none
        state := .closing }, by simp [State.flow], .inl rfl⟩
    · exact ⟨endFlow_part .., _, by rw [State.closeFlow, (endFlow_kept ..).1, (makePending_kept ..).1,
        writeAt_writeAt], .inr rfl⟩
    · exact ⟨rfl, _, same, .inl rfl⟩
  · exact ⟨rfl, _, same, .inl rfl⟩

theorem State.Running.completeDrain {s : State} (h : s.Running) (f : FlowId) : (s.completeDrain f).Running := by
  obtain ⟨hp, fl, hf, hs⟩ := completeDrain_place s f
  exact h.set hp hf (hs.elim (fun e => e.trans (h.unsuspended f)) id)

/-- R82, R140: a block presented while PARTNERED restarts the keepalive timer. -/
theorem State.Running.present {s : State} (h : s.Running) (b : LinkBlock) (owner : LinkOwner) :
    (s.present b owner).Running := by
  have hpart := present_part s b owner
  rw [if_pos h.partnered] at hpart
  have hstate : (s.present b owner).part.state = .partnered := by rw [hpart]; exact h.partnered
  refine ⟨⟨?_, fun f => ?_⟩, hstate⟩
  · have ho := h.laws.ordered
    rw [hpart]
    simpa only [Partnership.ordered, h.partnered] using ho
  · rw [hstate, State.flow, (present_kept ..).1]
    exact h.unsuspended f

end Sys2Proof.Machine

namespace Sys2Proof.Machine

/-! ## The sender half under the partnership laws (section 1) -/

@[simp] theorem takeStatus_suspended (fl : Flow) (base : Nat) (a : Seq) (map : BitVec 64) (high : Option Seq) :
    (fl.takeStatus base a map high).suspended = fl.suspended := by
  have hstop : ∀ u : Flow, u.stopIfIdle.suspended = u.suspended := fun u => by
    unfold Flow.stopIfIdle
    split <;> rfl
  unfold Flow.takeStatus
  rw [hstop, Flow.marks_eq, Flow.resetAfterAdvance_eq]
  rfl

theorem State.Running.countFlow {s : State} (h : s.Running) (f : FlowId) (g : FlowCounters → FlowCounters) :
    (s.countFlow f g).Running := h.congr rfl rfl

/-- R11 to R16, R58. -/
theorem State.Running.statusAtFlow {s : State} (h : s.Running) (f : FlowId) (a : Seq) (map : BitVec 64)
    (high : Option Seq) : (s.statusAtFlow f a map high).Running := by
  have taken : ∀ base k, ((s.modifyFlow f (·.takeStatus base a map high)).releaseFlow f k).Running := fun base k =>
    State.Running.congr (h.modifyFlow ((takeStatus_suspended ..).trans (h.unsuspended f))) (releaseFlow_part ..)
      (releaseFlow_kept ..).1
  cases ht : (s.flow f).takesBlocks with
  | true =>
    rw [statusAtFlow_of_traffic ht]
    split
    · exact h.countFlow f _
    · exact (taken _ _).completeDrain f
  | false =>
    unfold State.statusAtFlow
    unfold Flow.takesBlocks at ht
    split
    · exact h
    · exact h
    · exact h.congr rfl rfl
    all_goals simp_all

theorem State.Running.sendData {s : State} (h : s.Running) (f : FlowId) (cls : PortClass) (epoch : Epoch)
    (body : BlockBody) : (s.sendData f cls epoch body).Running := (h.present _ _).modifyLink _

@[simp] theorem skip_suspended (fl : Flow) (q : Seq) : (fl.skip q).suspended = fl.suspended := rfl

@[simp] theorem takeNew_suspended (fl : Flow) (frame : Frame) (rest : List Frame) :
    (fl.takeNew frame rest).suspended = fl.suspended := rfl

/-- R9, R20 to R22. -/
theorem State.Running.serveDue {s : State} (h : s.Running) (f : FlowId) (cls : PortClass) (epoch : Epoch)
    (e : WindowEntry) : (s.serveDue f cls epoch e).Running := by
  unfold State.serveDue
  split
  · have hm : (s.modifyFlow f (·.resend e.seq)).Running := h.modifyFlow (h.unsuspended f)
    exact (hm.sendData f cls epoch _).countFlow f _
  · split
    · have hr : (s.releaseFlow f 1).Running := h.congr (releaseFlow_part ..) (releaseFlow_kept ..).1
      have hm : ((s.releaseFlow f 1).modifyFlow f (·.skip e.seq)).Running :=
        hr.modifyFlow ((skip_suspended ..).trans (hr.unsuspended f))
      unfold State.sendSkip
      exact (hm.sendData f cls epoch _).countFlow f _
    · exact (h.makePending f .abort).endFlow f _ _ _ _ _

theorem carrierEpoch_partnered {s : State} {epoch : Epoch} (h : s.carrierEpoch = some epoch) :
    s.part.state = .partnered := (Option.ite_none_right_eq_some.1 h).1

/-- R8, R139: a data grant is taken only while PARTNERED. -/
theorem State.PartnershipLaws.dataGrantAt {s : State} (h : s.PartnershipLaws) (f : FlowId) (cls : PortClass) :
    (s.dataGrantAt f cls).PartnershipLaws := by
  unfold State.dataGrantAt
  split
  · exact h
  · next epoch he =>
    have hr : s.Running := ⟨h, carrierEpoch_partnered he⟩
    split
    · unfold State.serveData
      split
      · exact (hr.serveDue f cls epoch _).laws
      · split
        · next frame rest _ =>
          have hm : (s.modifyFlow f (·.takeNew frame rest)).Running :=
            hr.modifyFlow ((takeNew_suspended ..).trans (hr.unsuspended f))
          unfold State.sendNew
          exact ((hm.sendData f cls epoch _).countFlow f _).laws
        · exact h
    · exact h

/-! ## The receiver half under the partnership laws (section 2) -/

theorem State.Running.advanceExpected {s : State} (h : s.Running) (f : FlowId) : (s.advanceExpected f).Running :=
  State.Running.congr (h.modifyFlow (h.unsuspended f)) (deliverAll_part ..) (deliverAll_kept ..).1

theorem State.Running.acceptData {s : State} (h : s.Running) (f : FlowId) : (s.acceptData f).Running :=
  h.modifyFlow (h.unsuspended f)

theorem State.Running.setStatusPending {s : State} (h : s.Running) (f : FlowId) : (s.setStatusPending f).Running :=
  h.modifyFlow (h.unsuspended f)

theorem State.Running.insertMember {s : State} (h : s.Running) (f : FlowId) (m : Member) :
    (s.insertMember f m).Running := h.modifyFlow (h.unsuspended f)

theorem State.Running.deliver {s : State} (h : s.Running) (f : FlowId) (frame : Frame) :
    (s.deliver f frame).Running := h.congr rfl rfl

/-- R29 to R33. -/
theorem State.Running.dataInOrder {s : State} (h : s.Running) (f : FlowId) (frame : Frame) :
    (s.dataInOrder f frame).Running := by
  unfold State.dataInOrder
  split
  · exact h.countFlow f _
  · next u hu =>
    have hg : u.Running := h.congr (grantFlow_part hu) (grantFlow_kept hu).1
    exact ((hg.deliver f frame).advanceExpected f).acceptData f

theorem State.Running.dataEarly {s : State} (h : s.Running) (f : FlowId) (q : Seq) (frame : Frame) :
    (s.dataEarly f q frame).Running := by
  unfold State.dataEarly
  split
  · exact h.countFlow f _
  · next u hu =>
    have hg : u.Running := h.congr (grantFlow_part hu) (grantFlow_kept hu).1
    simp only
    split
    · exact ((hg.insertMember f _).setStatusPending f).acceptData f
    · exact (((hg.deliver f frame).insertMember f _).setStatusPending f).acceptData f

/-- R65. -/
theorem State.Running.dataElsewhere {s : State} (h : s.Running) (f : FlowId) : (s.dataElsewhere f).Running := by
  unfold State.dataElsewhere
  split
  · exact h.makePending f _
  · exact h.congr rfl rfl
  all_goals exact h

theorem State.Running.dataDuplicate {s : State} (h : s.Running) (f : FlowId) : (s.dataDuplicate f).Running :=
  (h.countFlow f _).setStatusPending f

/-- R28, R65. -/
theorem State.Running.dataAtFlow {s : State} (h : s.Running) (f : FlowId) (q : Seq) (frame : Frame) :
    (s.dataAtFlow f q frame).Running := by
  unfold State.dataAtFlow
  split
  · unfold State.sortData
    simp only
    split
    · exact h.dataInOrder f frame
    · split
      · split
        · exact h.dataDuplicate f
        · exact h.dataEarly f q frame
      · split
        · exact h.countFlow f _
        · exact h.dataDuplicate f
  · exact h.dataElsewhere f

/-- R38, R65. -/
theorem State.Running.advanceAtFlow {s : State} (h : s.Running) (f : FlowId) (q : Seq) :
    (s.advanceAtFlow f q).Running := by
  unfold State.advanceAtFlow
  split
  · unfold State.sortAdvance
    simp only
    refine State.Running.setStatusPending ?_ f
    split
    · exact h.advanceExpected f
    · split
      · split
        · exact h
        · exact h.insertMember f _
      · split
        · exact h.countFlow f _
        · exact h
  · exact h.dataElsewhere f

/-- R43. -/
theorem State.PartnershipLaws.statusGrantAt {s : State} (h : s.PartnershipLaws) (f : FlowId) :
    (s.statusGrantAt f).PartnershipLaws := by
  unfold State.statusGrantAt
  split
  · exact h
  · next epoch he =>
    have hr : s.Running := ⟨h, carrierEpoch_partnered he⟩
    split
    · have hm : (s.modifyFlow f (·.statusSent)).Running := hr.modifyFlow (hr.unsuspended f)
      exact ((hm.present _ _).modifyLink _).laws
    · exact h

/-! ## The lifecycle under the partnership laws (section 3) -/

/-- R54, R55. -/
theorem State.Running.openAtFlow {s : State} (h : s.Running) (f : FlowId) (window : Nat) (order : OrderMode) :
    (s.openAtFlow f window order).Running := by
  unfold State.openAtFlow
  split
  · unfold State.openAtClosed
    simp only
    split
    · exact h.makePending f _
    · split
      · exact h.makePending f _
      · split
        · exact h.makePending f _
        · next u hu =>
          have hu' : u.Running := h.set (prepareOpening_part hu) (prepareOpening_some hu).1 (h.unsuspended f)
          exact (hu'.makePending f _).changeFlowState f _ _
  · unfold State.openCrossed
    simp only
    split
    · have hm : (s.modifyFlow f fun fl => { fl with openTimer := .stopped }).Running :=
        h.modifyFlow (h.unsuspended f)
      exact ((hm.makePending f _).changeFlowState f _ _).completeDeferred f _
    · exact h.makePending f _
  · exact h.makePending f _
  · exact h.congr rfl rfl
  · exact h.congr rfl rfl
  · exact h.makePending f _

/-- R56. -/
theorem State.Running.openAckAtFlow {s : State} (h : s.Running) (f : FlowId) (verdict : Verdict) :
    (s.openAckAtFlow f verdict).Running := by
  unfold State.openAckAtFlow
  split
  · unfold State.acceptanceAtFlow
    split
    · have hm : (s.modifyFlow f fun fl => { fl with openTimer := .stopped }).Running :=
        h.modifyFlow (h.unsuspended f)
      have hc : ((s.modifyFlow f fun fl => { fl with openTimer := .stopped }).clearOpen f).Running := by
        unfold State.clearOpen
        split
        · exact hm.clearPending f
        · exact hm
      exact (hc.changeFlowState f _ _).completeDeferred f _
    · exact h.makePending f _
    · exact h
    all_goals exact h.congr rfl rfl
  · unfold State.refusalAtFlow
    split
    · exact h.endFlow f _ _ _ _ _
    all_goals exact h.congr rfl rfl

/-- R60. -/
theorem State.Running.closeAtFlow {s : State} (h : s.Running) (f : FlowId) : (s.closeAtFlow f).Running := by
  have hm : (s.modifyFlow f fun fl => { fl with drainOrigin := some .peerEnd }).Running :=
    h.modifyFlow (h.unsuspended f)
  unfold State.closeAtFlow
  split
  · exact (hm.changeFlowState f _ _).completeDrain f
  · split
    · exact (hm.completeDeferred f _).completeDrain f
    · exact h
  · exact h.makePending f _
  · exact h.makePending f _
  · exact h
  · exact h

/-- R61, R63. -/
theorem State.Running.closeAckAtFlow {s : State} (h : s.Running) (f : FlowId) : (s.closeAckAtFlow f).Running := by
  unfold State.closeAckAtFlow
  split
  · exact h.endFlow f _ _ _ _ _
  · exact h

theorem State.Running.abortAtFlow {s : State} (h : s.Running) (f : FlowId) : (s.abortAtFlow f).Running := by
  unfold State.abortAtFlow
  split
  · exact h.endFlow f _ _ _ _ _
  · exact h

/-- R53, R55, R58, R59. -/
theorem State.Running.afterTaking {s : State} (h : s.Running) (f : FlowId) (b : LifecycleBlock) :
    (s.afterTaking f b).Running := by
  unfold State.afterTaking
  cases b with
  | openFlow window order => exact h.modifyFlow (h.unsuspended f)
  | close => exact h.modifyFlow (h.unsuspended f)
  | openAck verdict =>
    simp only
    split
    · exact h.makePending f _
    · exact h.completeDrain f
  | closeAck =>
    simp only
    split
    · exact h.makePending f _
    · exact h.completeDrain f
  | abort => exact h.completeDrain f

theorem State.PartnershipLaws.lifecycleGrantAt {s : State} (h : s.PartnershipLaws) (f : FlowId) :
    (s.lifecycleGrantAt f).PartnershipLaws := by
  unfold State.lifecycleGrantAt
  split
  · exact h
  · next epoch he =>
    have hr : s.Running := ⟨h, carrierEpoch_partnered he⟩
    split
    · exact h
    · split
      · exact h
      · exact (((hr.clearPending f).present _ _).afterTaking f _).laws

/-- R53: the open timer of a flow that stays OPENING, or enters CLOSED. -/
theorem State.PartnershipLaws.openTimerExpired {s : State} (h : s.PartnershipLaws) (f : FlowId) :
    (s.openTimerExpired f).PartnershipLaws := by
  unfold State.openTimerExpired
  split
  · exact State.PartnershipLaws.makePending (h.modifyFlow rfl rfl) f _
  · exact h.endFlow f (.inl rfl) _ _ _ _

/-- R59. -/
theorem State.PartnershipLaws.closeSeriesExpired {s : State} (h : s.PartnershipLaws) (f : FlowId) :
    (s.closeSeriesExpired f).PartnershipLaws := by
  unfold State.closeSeriesExpired
  simp only
  split
  · exact State.PartnershipLaws.makePending (h.modifyFlow rfl rfl) f _
  · exact h.endFlow f (.inl rfl) _ _ _ _

end Sys2Proof.Machine

namespace Sys2Proof.Machine

/-! ## Events at every flow (R66 to R69) -/

@[simp] theorem changeLinkState_part (s : State) (new : LinkState) (cause : LinkCause) :
    (s.changeLinkState new cause).part = { s.part with state := new } := rfl

@[simp] theorem discardPending_flow (s : State) (f : FlowId) :
    s.discardPending.flow f = { s.flow f with pendingBlock := none } := by
  rw [discardPending_eq]
  simp [State.flow]

/-- R66 to R69: an event that ends flows has changed each context by its rule. -/
theorem eachFlow_flow_of_endsAt {g : State → FlowId → State} {rule : Flow → Flow} {ends : Flow → Bool}
    (hg : EndsAt g rule ends) (s : State) (f : FlowId) : (s.eachFlow g).flow f = rule (s.flow f) := by
  simpa using (endedOver_all hg s).flow f

theorem eachFlow_part_of_endsAt {g : State → FlowId → State} {rule : Flow → Flow} {ends : Flow → Bool}
    (hg : EndsAt g rule ends) (s : State) : (s.eachFlow g).part = s.part := by
  rw [(endedOver_all hg s).rest]

/-- R68, R69: the partnership after its change of state, an event that ends flows and the discarding of every
pending block. -/
theorem discardedAfter_part {g : State → FlowId → State} {rule : Flow → Flow} {ends : Flow → Bool}
    (hg : EndsAt g rule ends) (s : State) (new : LinkState) (cause : LinkCause) :
    (((s.changeLinkState new cause).eachFlow g).discardPending).part = { s.part with state := new } := by
  rw [discardPending_part, eachFlow_part_of_endsAt hg]
  rfl

/-- R68, R69: the laws after an event that ends flows and the discarding of every pending block. -/
theorem partnershipLaws_of_ended {g : State → FlowId → State} {rule : Flow → Flow} {ends : Flow → Bool}
    (hg : EndsAt g rule ends) {s t : State} {new : LinkState} {cause : LinkCause}
    (hf : t.flows = (((s.changeLinkState new cause).eachFlow g).discardPending).flows)
    (hr : ∀ f p, (rule (s.flow f)).fits p) (ho : t.part.ordered) : t.PartnershipLaws where
  ordered := ho
  flows f := by
    have e : t.flow f = { rule (s.flow f) with pendingBlock := none } := by
      rw [State.flow, hf, ← State.flow, discardPending_flow, eachFlow_flow_of_endsAt hg]
      rfl
    rw [e]
    exact (hr f _).congr rfl rfl

/-- R67: the event at one flow, which is not suspended after it. -/
theorem regainAtFlow_place (s : State) (f : FlowId) :
    (s.regainAtFlow f).part = s.part ∧ ∃ fl, (s.regainAtFlow f).flows = writeAt s.flows f fl ∧
      fl.suspended = false := by
  unfold State.regainAtFlow
  split
  · simp only
    split
    · exact ⟨rfl, { (s.flow f).resumed (s.profile f).rtoBase with pendingBlock := some .close },
        by simp [State.flow], rfl⟩
    · obtain ⟨hp, fl, hf, hs⟩ := completeDrain_place (s.modifyFlow f (·.resumed (s.profile f).rtoBase)) f
      refine ⟨hp, fl, by rw [hf, modifyFlow_flows, writeAt_writeAt], hs.elim (fun e => e.trans ?_) id⟩
      rw [flow_modifyFlow_same]
      rfl
  · next hs => exact ⟨rfl, s.flow f, (writeAt_readAt s.flows f).symm, by simpa using hs⟩

/-- R67: after the event at every flow none is suspended. -/
theorem eachFlow_regain_place (s : State) :
    (s.eachFlow State.regainAtFlow).part = s.part ∧
      ∀ f, ((s.eachFlow State.regainAtFlow).flow f).suspended = false := by
  refine ⟨eachFlow_same State.part (fun u f => (regainAtFlow_place u f).1) s, fun f => ?_⟩
  refine eachFlow_ind (P := fun done t => ∀ k ∈ done, (t.flow k).suspended = false) ?_ (by simp) f
    (List.mem_finRange f)
  intro done k t _ ht j hj
  obtain ⟨-, fl, hf, hs⟩ := regainAtFlow_place t k
  rw [State.flow, hf, readAt_writeAt]
  split
  · exact hs
  · next hne => exact ht j (by simpa [Ne.symm hne] using hj)

/-! ## The partnership under its laws (section 4) -/

@[simp] theorem isRunning_running (n : Nat) : (Timer.running n).isRunning = true := rfl

@[simp] theorem isRunning_stopped : Timer.stopped.isRunning = false := rfl

/-- R71: the state after power-on, or after a restart applied. -/
theorem partnershipLaws_of_initial {t : State} (hp : t.part = Partnership.initial) {rto : FlowId → Nat}
    (hf : ∀ f, t.flow f = Flow.initial (rto f)) : t.PartnershipLaws where
  ordered := by rw [hp]; exact ⟨rfl, rfl, rfl, rfl, rfl, rfl, rfl, rfl, rfl, rfl⟩
  flows f := by rw [hp, hf]; exact ⟨rfl, rfl⟩

theorem applyRestart_partnershipLaws (s : State) : s.applyRestart.PartnershipLaws :=
  partnershipLaws_of_initial (applyRestart_restarted s).partnership (applyRestart_restarted s).flows

/-- In SILENT and JOINING no flow is in use or suspended, so each may stand wherever the partnership goes. -/
theorem State.PartnershipLaws.from_rest {s t : State} (h : s.PartnershipLaws)
    (hs : s.part.state = .silent ∨ s.part.state = .joining) (hf : t.flows = s.flows) (ho : t.part.ordered) :
    t.PartnershipLaws where
  ordered := ho
  flows f := by
    have hfit : (s.flow f).inUse = false ∧ (s.flow f).suspended = false := by
      have := h.flows f
      rcases hs with hs | hs <;> rwa [hs] at this
    rw [State.flow, hf]
    exact Flow.fits_of_rest hfit.1 hfit.2 _

/-- R166: the LEAVE owed at a RESTART says nothing of the timers. -/
theorem State.PartnershipLaws.responseDeparted {s : State} (h : s.PartnershipLaws) :
    s.responseDeparted.PartnershipLaws := by
  unfold State.responseDeparted
  split
  · next hs =>
    have ho := h.ordered
    have hm : (s.modifyPart fun p => { p with leavePending := p.ownEpoch }).PartnershipLaws :=
      h.modifyPart rfl (by rcases hs with hs | hs <;> simpa only [Partnership.ordered, hs] using ho)
    exact hm.congr rfl rfl
  · exact applyRestart_partnershipLaws s

theorem State.PartnershipLaws.discardReplies {s : State} (h : s.PartnershipLaws) :
    s.discardReplies.PartnershipLaws := by
  unfold State.discardReplies
  simp only
  split
  · exact State.PartnershipLaws.responseDeparted (h.congr rfl rfl)
  · exact h.congr rfl rfl

/-- R77: the partnership after a handshake. -/
theorem handshake_part (s : State) : s.handshake.part = { s.part with
    state := .partnered, joinTimer := .stopped, helloTimer := .stopped
    silenceTimer := .running s.params.silenceLimit, keepaliveTimer := .running s.params.keepaliveInterval
    repeatMark := false, deferredJoin := none } := by
  simp [State.handshake, completeJoin_part, changeLinkState_eq]

@[simp] theorem handshake_flows (s : State) : s.handshake.flows = s.flows := by simp [State.handshake]

/-- R77: a HELLO in JOINING. -/
theorem State.PartnershipLaws.helloInJoining {s : State} (h : s.PartnershipLaws) (hs : s.part.state = .joining)
    (epoch : Epoch) (unit : Address) (seen : Option Epoch) : (s.helloInJoining epoch unit seen).PartnershipLaws := by
  have ho : s.part.ordered := h.ordered
  simp only [Partnership.ordered, hs] at ho
  unfold State.helloInJoining
  simp only
  split
  · refine h.from_rest (.inr hs) (handshake_flows _) ?_
    obtain ⟨-, -, -, -, hhold, -, hown⟩ := ho
    simp [handshake_part, Partnership.ordered, Timer.isRunning, hhold, hown]
  · exact h.modifyPart rfl (by simpa only [Partnership.ordered, hs] using ho)

/-- R68, R80, R83: PARTNERED or LOST, the partnership keeps an own epoch and no join waits. -/
theorem Partnership.ordered_of_linked {p : Partnership} (h : p.ordered)
    (hs : p.state = .partnered ∨ p.state = .lost) :
    p.ownEpoch.isSome = true ∧ p.deferredJoin = none ∧ p.joinTimer = .stopped := by
  rcases hs with hs | hs <;> simp only [Partnership.ordered, hs] at h <;> tauto

/-- R80. -/
theorem State.PartnershipLaws.partnerRestart {s : State} (h : s.PartnershipLaws)
    (hs : s.part.state = .partnered ∨ s.part.state = .lost) (epoch : Epoch) (unit : Address)
    (seen : Option Epoch) : (s.partnerRestart epoch unit seen).PartnershipLaws := by
  obtain ⟨hown, -, -⟩ := Partnership.ordered_of_linked h.ordered hs
  have hg := partnershipEndAtFlow_endsAt .partnerRestart
  have hpart := discardedAfter_part hg s .joining .partnerRestart
  simp only [State.partnerRestart]
  refine State.PartnershipLaws.helloInJoining (partnershipLaws_of_ended hg (s := s) (new := .joining)
    (cause := .partnerRestart) (modifyPart_flows ..)
    (fun f => Flow.partnershipEnded_fits (h.flows f) _) ?_) ?_ _ _ _
  · rw [modifyPart_part, hpart]
    simp [Partnership.ordered, Partnership.restarted, hown]
  · rw [modifyPart_part, hpart]
    rfl

/-- R79. -/
theorem State.PartnershipLaws.regain {s : State} (h : s.PartnershipLaws) (hs : s.part.state = .lost) :
    s.regain.PartnershipLaws := by
  have ho := h.ordered
  simp only [Partnership.ordered, hs] at ho
  obtain ⟨hjoin, -, -, -, -, -, hown, hpe, hpu, hdef⟩ := ho
  simp only [State.regain]
  refine ⟨?_, fun f => ?_⟩
  · rw [(eachFlow_regain_place _).1]
    simp [Partnership.ordered, Timer.isRunning, hjoin, hown, hpe, hpu, hdef]
  · rw [(eachFlow_regain_place _).1]
    exact (eachFlow_regain_place _).2 f

/-- R81: the silence timer restarts only while it runs, in PARTNERED. -/
theorem State.Running.restartSilence {s : State} (h : s.Running) : s.restartSilence.Running := by
  have ho := h.laws.ordered
  simp only [Partnership.ordered, h.partnered] at ho
  refine ⟨h.laws.modifyPart rfl ?_, h.partnered⟩
  simpa [Partnership.ordered, h.partnered, Timer.isRunning] using ⟨ho.1, ho.2.1, ho.2.2.2⟩

/-- R76 to R80. -/
theorem State.PartnershipLaws.helloAtPartnership {s : State} (h : s.PartnershipLaws) (epoch : Epoch)
    (unit : Address) (seen : Option Epoch) : (s.helloAtPartnership epoch unit seen).PartnershipLaws := by
  have ho := h.ordered
  unfold State.helloAtPartnership
  split
  · exact h.congr rfl rfl
  · next hs =>
    split
    · exact h.congr rfl rfl
    · split
      · exact h.congr rfl rfl
      · exact h.helloInJoining hs _ _ _
  · next hs =>
    split
    · exact h.congr rfl rfl
    · unfold State.helloInPartnered
      split
      · have hm : (s.modifyPart (·.heardHello seen)).PartnershipLaws := by
          have heard : ∃ pending mark, s.part.heardHello seen =
              { s.part with helloPending := pending, repeatMark := mark } := by
            unfold Partnership.heardHello
            split
            · split <;> exact ⟨_, _, rfl⟩
            · exact ⟨_, _, rfl⟩
          obtain ⟨pending, mark, e⟩ := heard
          exact h.modifyPart (by rw [e]) (by rw [e]; simpa only [Partnership.ordered, hs] using ho)
        have hp : (s.modifyPart (·.heardHello seen)).part.state = .partnered := by
          simp only [modifyPart_part, Partnership.heardHello]
          split
          · split <;> exact hs
          · exact hs
        exact (State.Running.restartSilence ⟨hm, hp⟩).laws
      · exact h.partnerRestart (.inl hs) _ _ _
  · next hs =>
    split
    · exact h.congr rfl rfl
    · unfold State.helloInLost
      split
      · split
        · exact h.regain hs
        · exact h.modifyPart rfl (by simpa only [Partnership.ordered, hs] using ho)
      · exact h.partnerRestart (.inr hs) _ _ _

/-- R84, R86, R87: the partnership is withdrawn to SILENT with no join waiting. -/
theorem withdrawn_ordered {p : Partnership} (hs : p.state = .silent) (hd : p.deferredJoin = none) :
    p.withdrawn.ordered := by
  simp [Partnership.ordered, Partnership.withdrawn, hs, hd]

/-- R87. -/
theorem State.PartnershipLaws.leaveAtPartnership {s : State} (h : s.PartnershipLaws) (epoch : Epoch) :
    (s.leaveAtPartnership epoch).PartnershipLaws := by
  unfold State.leaveAtPartnership
  split
  · next hs =>
    simp only [State.partnerLeft]
    refine State.PartnershipLaws.discardReplies (partnershipLaws_of_ended leaveAtFlow_endsAt (s := s)
      (new := .silent) (cause := .partnerLeft) (modifyPart_flows ..)
      (fun f => Flow.left_fits (h.flows f) (.inr rfl) _) ?_)
    rw [modifyPart_part, discardedAfter_part leaveAtFlow_endsAt]
    exact withdrawn_ordered rfl (Partnership.ordered_of_linked h.ordered hs.1).2.1
  · exact h.congr rfl rfl

/-- R86. -/
theorem State.PartnershipLaws.localLeave {s : State} (h : s.PartnershipLaws) : s.localLeave.PartnershipLaws := by
  simp only [State.localLeave]
  refine State.PartnershipLaws.discardReplies (partnershipLaws_of_ended localLeaveAtFlow_endsAt (s := s)
    (new := .silent) (cause := .request) ((completeJoin_kept ..).1.trans (modifyPart_flows ..))
    (fun f => Flow.left_fits (h.flows f) (.inl rfl) _) ?_)
  rw [completeJoin_part, modifyPart_part, discardedAfter_part localLeaveAtFlow_endsAt]
  exact ⟨rfl, rfl, rfl, rfl, rfl, rfl, rfl, rfl, rfl, rfl⟩

/-- R84. -/
theorem State.PartnershipLaws.joinExpired {s : State} (h : s.PartnershipLaws) (hs : s.part.state = .joining) :
    s.joinExpired.PartnershipLaws := by
  simp only [State.joinExpired]
  refine State.PartnershipLaws.discardReplies (h.from_rest (.inr hs) ?_ ?_)
  · simp
  · simp [completeJoin_part, changeLinkState_eq, Partnership.ordered, Partnership.withdrawn]

/-- R81. -/
theorem State.PartnershipLaws.silenceExpired {s : State} (h : s.PartnershipLaws)
    (hs : s.part.state = .partnered) : s.silenceExpired.PartnershipLaws := by
  have ho := h.ordered
  simp only [Partnership.ordered, hs] at ho
  obtain ⟨hjoin, -, -, -, hown, hpe, hpu, hdef⟩ := ho
  simp only [State.silenceExpired]
  refine ⟨?_, fun f => ?_⟩
  · rw [eachFlow_part_of_endsAt lossAtFlow_endsAt]
    simp [Partnership.ordered, Timer.isRunning, hjoin, hown, hpe, hpu, hdef]
  · rw [eachFlow_part_of_endsAt lossAtFlow_endsAt, eachFlow_flow_of_endsAt lossAtFlow_endsAt]
    exact Flow.lost_fits (hs ▸ h.flows f)

/-- R83. -/
theorem State.PartnershipLaws.holdExpired {s : State} (h : s.PartnershipLaws) (hs : s.part.state = .lost) :
    s.holdExpired.PartnershipLaws := by
  have ho := h.ordered
  simp only [Partnership.ordered, hs] at ho
  obtain ⟨-, hhello, hsil, hkeep, -, hkp, -⟩ := ho
  have hg := partnershipEndAtFlow_endsAt .partnerLost
  simp only [State.holdExpired]
  refine partnershipLaws_of_ended hg (s := s) (new := .joining) (cause := .holdExpired)
    ((modifyPart_flows ..).trans (drawEpoch_kept _).1) (fun f => Flow.partnershipEnded_fits (h.flows f) _) ?_
  rw [modifyPart_part, State.drawEpoch, discardedAfter_part hg]
  simp [Partnership.ordered, hhello, hsil, hkeep, hkp]

/-- R75: the hello timer runs only in JOINING and LOST, and goes on running. -/
theorem State.PartnershipLaws.helloTimerExpired {s : State} (h : s.PartnershipLaws)
    (hr : s.part.helloTimer.hasRunOut = true) :
    (s.modifyPart fun p => { p with helloPending := true, helloTimer := .running 200 }).PartnershipLaws := by
  have ho := h.ordered
  refine h.modifyPart rfl ?_
  cases hs : s.part.state with
  | silent | partnered =>
    simp only [Partnership.ordered, hs] at ho
    simp [ho.2.1, Timer.hasRunOut] at hr
  | joining | lost => simp_all [Partnership.ordered, Timer.isRunning]

/-- R82. -/
theorem State.PartnershipLaws.keepaliveTimerExpired {s : State} (h : s.PartnershipLaws)
    (hs : s.part.state = .partnered) :
    (s.modifyPart fun p => { p with keepalivePending := true, keepaliveTimer := .stopped }).PartnershipLaws :=
  h.modifyPart rfl (by simpa only [Partnership.ordered, hs] using h.ordered)

/-- R82, R140: a block presented in any partnership state. -/
theorem State.PartnershipLaws.present {s : State} (h : s.PartnershipLaws) (b : LinkBlock) (owner : LinkOwner) :
    (s.present b owner).PartnershipLaws := by
  by_cases hs : s.part.state = .partnered
  · exact (State.Running.present ⟨h, hs⟩ b owner).laws
  · exact h.congr (by rw [present_part, if_neg hs]) (present_kept ..).1

/-- R74. -/
theorem State.PartnershipLaws.partnershipGrantAt {s : State} (h : s.PartnershipLaws) :
    s.partnershipGrantAt.PartnershipLaws := by
  have ho := h.ordered
  unfold State.partnershipGrantAt
  split
  · exact State.PartnershipLaws.present (h.modifyPart rfl ho) _ _
  · split
    · refine State.PartnershipLaws.present (h.modifyPart rfl ?_) _ _
      cases hs : s.part.state <;> simp_all [Partnership.ordered]
    · split
      · refine State.PartnershipLaws.present (h.modifyPart rfl ?_) _ _
        cases hs : s.part.state <;> simp_all [Partnership.ordered]
      · exact h
  · exact h

/-- R71 to R87: one millisecond passes. -/
theorem State.PartnershipLaws.tick {s : State} (h : s.PartnershipLaws) : s.tick.PartnershipLaws := by
  have hf : ∀ f, (s.tick.flow f).state = (s.flow f).state ∧ (s.tick.flow f).suspended = (s.flow f).suspended := by
    intro f
    have : s.tick.flow f = (s.flow f).tick := by simp [State.tick, State.flow]
    rw [this]
    unfold Flow.tick
    split <;> exact ⟨rfl, rfl⟩
  have ht : ∀ t : Timer, t = .stopped → t.tick = .stopped := by rintro _ rfl; rfl
  refine ⟨?_, fun f => (h.flows f).congr (hf f).1 (hf f).2⟩
  have ho := h.ordered
  change s.part.tick.ordered
  cases hs : s.part.state <;> simp_all [Partnership.ordered, Partnership.tick]

end Sys2Proof.Machine

namespace Sys2Proof.Machine

/-! ## The ports under the partnership laws (sections 6 and 8) -/

/-- R2, R109 to R112. -/
theorem State.PartnershipLaws.classifyFrame {s : State} (h : s.PartnershipLaws) (v : FrameView) (frame : Frame) :
    (s.classifyFrame v frame).PartnershipLaws := by
  unfold State.classifyFrame
  split
  · next i _ =>
    have hh : (s.countHit i).PartnershipLaws := h.congr rfl rfl
    unfold State.entryAction
    split
    · exact hh
    · exact hh.congr (bulkPath_part ..) (bulkPath_kept ..).1
    · next f _ =>
      unfold State.offerFrame
      split
      · unfold State.acceptFrame
        split
        · next u hu =>
          have hg : u.PartnershipLaws := hh.congr (grantFlow_part hu) (grantFlow_kept hu).1
          have hm := hg.modifyFlow (f := f) (g := fun fl => { fl with sendQueue := fl.sendQueue ++ [frame] }) rfl rfl
          exact hm.congr rfl rfl
        · exact hh.congr rfl rfl
      · exact hh.congr (plainAction_part ..) (plainAction_kept ..).1
  · exact h.congr (plainAction_part ..) (plainAction_kept ..).1

/-- R103, R105. -/
theorem State.PartnershipLaws.receiveFrame {s : State} (h : s.PartnershipLaws) (received : List Byte)
    (bad : Bool) : (s.receiveFrame received bad).PartnershipLaws := by
  unfold State.receiveFrame
  split
  · simp only
    split
    · exact h.congr (intake_part ..) (intake_kept ..).1
    · exact h.classifyFrame _ _
  · exact h.congr rfl rfl

/-- R146. -/
theorem State.PartnershipLaws.wireEnd {s : State} (h : s.PartnershipLaws) (owner : WireOwner) :
    (s.wireEnd owner).PartnershipLaws := by
  unfold State.wireEnd
  split
  · exact h
  · exact h.congr (releaseAccount_part ..) (releaseAccount_kept ..).1
  · simp only
    split
    · exact State.PartnershipLaws.responseDeparted (h.congr rfl rfl)
    · exact h.congr rfl rfl

theorem State.PartnershipLaws.wireDown {s : State} (h : s.PartnershipLaws) : s.wireDown.PartnershipLaws := by
  unfold State.wireDown
  simp only
  split
  · exact (State.PartnershipLaws.wireEnd (s := s.modifyWire fun w => { w with linkUp := false }) (h.congr rfl rfl)
      _).congr rfl rfl
  · exact h.congr rfl rfl

/-- R113, R152. -/
theorem State.PartnershipLaws.bulkGrantAt {s : State} (h : s.PartnershipLaws) : s.bulkGrantAt.PartnershipLaws := by
  unfold State.bulkGrantAt
  split
  · exact h
  · split
    · exact (h.present _ _).modifyLink _
    · split
      · exact ((h.modifyLink _).present _ _).modifyLink _
      · exact h

/-- R140. -/
theorem State.PartnershipLaws.linkEnd {s : State} (h : s.PartnershipLaws) (owner : LinkOwner) :
    (s.linkEnd owner).PartnershipLaws := by
  unfold State.linkEnd
  split
  · exact h
  · exact h.congr (releaseBulk_part s) (releaseBulk_kept s).1
  · exact applyRestart_partnershipLaws s
  · simp only
    split
    · exact State.PartnershipLaws.responseDeparted (h.congr rfl rfl)
    · exact h.congr rfl rfl

theorem accepts_partnered {s : State} {epoch : Epoch} (h : s.accepts epoch = true) : s.part.state = .partnered := by
  simp only [State.accepts, Bool.and_eq_true, beq_iff_eq] at h
  exact h.1

/-- R88: a block that passes the test of its epoch, or is stale. -/
theorem State.PartnershipLaws.ifAccepted {s : State} (h : s.PartnershipLaws) (epoch : Epoch) {d : State → State}
    (hd : ∀ v : State, v.Running → (d v).Running) : (s.ifAccepted epoch d).PartnershipLaws := by
  unfold State.ifAccepted
  split
  · next ha => exact (hd _ (State.Running.restartSilence ⟨h, accepts_partnered ha⟩)).laws
  · exact h.congr rfl rfl

/-- R88, R144: a block for a flow. -/
theorem State.PartnershipLaws.atFlow {s : State} (h : s.PartnershipLaws) (epoch : Epoch) {d : State → State}
    (hd : ∀ v : State, v.Running → (d v).Running) :
    (s.dropFlowBlock.ifAccepted epoch d).PartnershipLaws := (h.modifyLink _).ifAccepted epoch hd

/-! ## The requests under the partnership laws (sections 7, 9 and 10) -/

theorem State.PartnershipLaws.executeRequest {s : State} (h : s.PartnershipLaws) (r : Request)
    {work : Request → State → Answer × State} (hw : ∀ r u, u.PartnershipLaws → (work r u).2.PartnershipLaws) :
    (s.executeRequest r work).PartnershipLaws := by
  unfold State.executeRequest
  split
  · exact h.congr (refuseUnbound_part s r) (refuseUnbound_kept s r).1
  · exact (hw r s h).congr (answerRequest_part _ r _) (answerRequest_kept _ r _).1

/-- A happening that keeps the laws keeps them with what follows it. -/
theorem partnershipLaws_of_finish {s t : State} (e : (.next s.finish : Host.Outcome State Fault Refusal) = .next t)
    (h : s.PartnershipLaws) : t.PartnershipLaws := by
  cases e
  exact h.finish

/-- R156: a request whose work keeps the laws keeps them. -/
theorem State.PartnershipLaws.execute {s t : State} (h : s.PartnershipLaws) {named : Byte → Bool}
    {work : Request → State → Answer × State} (e : s.execute named work = .next t)
    (hw : ∀ r u, u.PartnershipLaws → (work r u).2.PartnershipLaws) : t.PartnershipLaws := by
  unfold State.execute at e
  split at e
  · cases e; exact h
  · next r _ =>
    split at e
    · exact partnershipLaws_of_finish e
        (State.PartnershipLaws.executeRequest (s := s.begin r) (h.congr rfl rfl) r hw)
    · cases e; exact h

/-- A request without body. -/
theorem State.PartnershipLaws.bodyless {s : State} (h : s.PartnershipLaws) (r : Request) {work : Answer × State}
    (hw : work.2.PartnershipLaws) : (bodyless r s work).2.PartnershipLaws := by
  unfold Machine.bodyless
  split
  · exact hw
  · exact h

/-- A request that names a flow. -/
theorem State.PartnershipLaws.withFlow {s : State} (h : s.PartnershipLaws) (r : Request)
    {work : FlowId → Answer × State} (hw : ∀ f, (work f).2.PartnershipLaws) :
    (withFlow r s work).2.PartnershipLaws := by
  unfold Machine.withFlow
  split
  · exact h
  · exact hw _

/-- What a request's work may change where no rule of section 3 or 4 stands behind it. -/
def State.KeepsPlaces (s t : State) : Prop := t.part = s.part ∧ t.flows = s.flows

theorem bindWork_keepsPlaces (r : Request) (s : State) : s.KeepsPlaces (bindWork r s).2 := by
  unfold bindWork bindWith
  simp only
  split
  · split
    · exact ⟨rfl, rfl⟩
    · split <;> exact ⟨rfl, rfl⟩
  · exact ⟨rfl, rfl⟩

theorem readTableWork_keepsPlaces (r : Request) (s : State) : s.KeepsPlaces (readTableWork r s).2 := by
  unfold readTableWork
  simp only
  split
  · split <;> exact ⟨rfl, rfl⟩
  · exact ⟨rfl, rfl⟩

theorem writeTableWork_keepsPlaces (r : Request) (s : State) : s.KeepsPlaces (writeTableWork r s).2 := by
  unfold writeTableWork
  simp only
  split
  · split
    · unfold writeShadow
      split <;> exact ⟨rfl, rfl⟩
    · exact ⟨rfl, rfl⟩
  · exact ⟨rfl, rfl⟩

theorem commitWork_keepsPlaces (r : Request) (s : State) : s.KeepsPlaces (commitWork r s).2 := by
  unfold commitWork
  split
  · unfold commitBank
    split
    · exact ⟨rfl, rfl⟩
    · split
      · exact ⟨rfl, rfl⟩
      · split <;> exact ⟨rfl, rfl⟩
  · exact ⟨rfl, rfl⟩

theorem readCountersWork_keepsPlaces (r : Request) (s : State) : s.KeepsPlaces (readCountersWork r s).2 := by
  unfold readCountersWork
  simp only
  split
  · split
    · unfold readDeviceCounters
      simp only
      split <;> exact ⟨rfl, rfl⟩
    · split
      · unfold readFlowCounters
        simp only
        split <;> exact ⟨rfl, rfl⟩
      · exact ⟨rfl, rfl⟩
    · exact ⟨rfl, rfl⟩
  · exact ⟨rfl, rfl⟩

theorem setParamsWork_keepsPlaces (r : Request) (s : State) : s.KeepsPlaces (setParamsWork r s).2 := by
  unfold setParamsWork setParamsWith
  simp only
  split
  · split
    · exact ⟨rfl, rfl⟩
    · split
      · exact ⟨rfl, rfl⟩
      · split <;> exact ⟨rfl, rfl⟩
  · exact ⟨rfl, rfl⟩

theorem setNoticesWork_keepsPlaces (r : Request) (s : State) : s.KeepsPlaces (setNoticesWork r s).2 := by
  unfold setNoticesWork
  simp only
  split <;> exact ⟨rfl, rfl⟩

theorem State.PartnershipLaws.keepsPlaces {s t : State} (h : s.PartnershipLaws) (k : s.KeepsPlaces t) :
    t.PartnershipLaws := h.congr k.1 k.2

/-- R52: a flow becomes OPENING only while PARTNERED. -/
theorem State.PartnershipLaws.flowOpenAt {s : State} (h : s.PartnershipLaws) (f : FlowId) (tag : Tag) :
    (flowOpenAt s f tag).2.PartnershipLaws := by
  unfold Machine.flowOpenAt
  split
  · exact h
  · split
    · exact h
    · split
      · exact h
      · split
        · exact h
        · next hp =>
          split
          · exact h
          · next u hu =>
            have hr : s.Running := ⟨h, not_not.1 hp⟩
            have hu' : u.Running := hr.set (prepareOpening_part hu) (prepareOpening_some hu).1 (hr.unsuspended f)
            have hm : ((u.makeOpenPending f).modifyFlow f fun fl =>
                { fl with attempts := 0, deferred := some ⟨.flowOpen, tag⟩ }).Running :=
              State.Running.modifyFlow (hu'.makePending f _) ((hu'.makePending f _).unsuspended f)
            exact (hm.changeFlowState f _ _).laws

/-- R58: a DRAINING flow that may be suspended keeps its place, or its drain is over. -/
theorem State.PartnershipLaws.completeDrain {s : State} (h : s.PartnershipLaws) (f : FlowId) :
    (s.completeDrain f).PartnershipLaws := by
  cases hd : (s.flow f).drained with
  | false => rwa [completeDrain_waits (.inl hd)]
  | true =>
    obtain ⟨hst, hs, -⟩ := (drained_iff _).1 hd
    have hp := (h.flows f).partnered_of_running (by simp [Flow.inUse, hst]) hs
    exact (State.Running.completeDrain ⟨h, hp⟩ f).laws

/-- R57: an OPEN flow stands where a DRAINING one may. -/
theorem State.PartnershipLaws.flowCloseAt {s : State} (h : s.PartnershipLaws) (f : FlowId) (tag : Tag) :
    (flowCloseAt s f tag).2.PartnershipLaws := by
  unfold Machine.flowCloseAt
  split
  · next hs =>
    have hfit : Flow.fits { s.flow f with
        drainOrigin := some .localEnd, deferred := some ⟨.flowClose, tag⟩, state := .draining } s.part.state := by
      have hf := h.flows f
      cases hp : s.part.state <;> simp_all [Flow.fits, Flow.inUse]
    have hd : ((s.modifyFlow f fun fl =>
        { fl with drainOrigin := some .localEnd, deferred := some ⟨.flowClose, tag⟩ }).changeFlowState f
          .draining .request).PartnershipLaws := h.set (f := f) rfl (by simp [State.flow]) hfit
    exact hd.completeDrain f
  all_goals exact h

/-- R62. -/
theorem State.PartnershipLaws.flowAbortAt {s : State} (h : s.PartnershipLaws) (f : FlowId) :
    (flowAbortAt s f).2.PartnershipLaws := by
  unfold Machine.flowAbortAt State.abortFlow
  simp only
  split
  · split
    · exact (h.makePending f .abort).endFlow f (.inl rfl) _ _ _ _
    · exact h.endFlow f (.inl rfl) _ _ _ _
  · exact h

/-- R64. -/
theorem State.PartnershipLaws.flowResetAt {s : State} (h : s.PartnershipLaws) (f : FlowId) :
    (flowResetAt s f).2.PartnershipLaws := by
  unfold Machine.flowResetAt
  split
  · exact h.endFlow f (.inl rfl) _ _ _ _
  · exact h

/-- R73: in SILENT every timer is stopped and every record empty but the own epoch. -/
theorem State.PartnershipLaws.joinAt {s : State} (h : s.PartnershipLaws) (tag : Tag) :
    (joinAt s tag).2.PartnershipLaws := by
  unfold Machine.joinAt
  split
  · next hs =>
    have ho := h.ordered
    simp only [Partnership.ordered, hs] at ho
    obtain ⟨-, -, hsil, hkeep, hhold, -, hkp, hpe, hpu, -⟩ := ho
    refine h.from_rest (.inl hs) (by simp [State.startJoin, State.drawEpoch]) ?_
    simp [State.startJoin, State.drawEpoch, Partnership.ordered, hsil, hkeep, hhold, hkp, hpe, hpu]
  all_goals exact h

theorem State.PartnershipLaws.leaveWork {s : State} (h : s.PartnershipLaws) :
    (if s.part.state = .silent then s else s.localLeave).PartnershipLaws := by
  split
  · exact h
  · exact h.localLeave

/-- R165, R166. -/
theorem State.PartnershipLaws.executeRestart {s : State} (h : s.PartnershipLaws) (r : Request) :
    (s.executeRestart r).PartnershipLaws := by
  have hd := h.executeRequest r (work := restartWork) fun r u hu => hu.bodyless r (hu.congr rfl rfl)
  unfold State.executeRestart
  simp only
  split
  · exact hd.responseDeparted
  · exact hd

/-! ## Every command keeps the partnership laws -/

theorem powerOn_partnershipLaws (unitId : Address) (draws : Nat) (pending : List Instr) :
    (State.powerOn unitId draws pending).PartnershipLaws :=
  partnershipLaws_of_initial (rto := fun _ => 100) rfl fun f => by simp [State.powerOn, State.flow]

/-- R143: the blocks that a flow takes. -/
theorem State.PartnershipLaws.flowBlockReceived {s t : State} (h : s.PartnershipLaws) {c : Instr}
    (hc : c ∈ [.openReceived, .openAckReceived, .closeReceived, .closeAckReceived, .abortReceived, .dataReceived,
      .advanceReceived, .statusReceived]) (e : exec c s = .next t) : t.PartnershipLaws := by
  have keeps : ∀ {epoch d}, (.next (s.dropFlowBlock.ifAccepted epoch d).finish : Host.Outcome State Fault Refusal) =
      .next t → (∀ v : State, v.Running → (d v).Running) → t.PartnershipLaws := fun {epoch d} e hd =>
    partnershipLaws_of_finish e (h.atFlow epoch hd)
  have same : (.next s : Host.Outcome State Fault Refusal) = .next t → t.PartnershipLaws := fun e => by
    cases e; exact h
  simp only [List.mem_cons, List.not_mem_nil, or_false] at hc
  rcases hc with rfl | rfl | rfl | rfl | rfl | rfl | rfl | rfl
  · change execOpenReceived s = _ at e
    unfold execOpenReceived at e
    split at e
    · exact keeps e fun v hv => hv.openAtFlow _ _ _
    · exact same e
  · change execOpenAckReceived s = _ at e
    unfold execOpenAckReceived at e
    split at e
    · exact keeps e fun v hv => hv.openAckAtFlow _ _
    · exact same e
  · change execCloseReceived s = _ at e
    unfold execCloseReceived at e
    split at e
    · exact keeps e fun v hv => hv.closeAtFlow _
    · exact same e
  · change execCloseAckReceived s = _ at e
    unfold execCloseAckReceived at e
    split at e
    · exact keeps e fun v hv => hv.closeAckAtFlow _
    · exact same e
  · change execAbortReceived s = _ at e
    unfold execAbortReceived at e
    split at e
    · exact keeps e fun v hv => hv.abortAtFlow _
    · exact same e
  · change execDataReceived s = _ at e
    unfold execDataReceived at e
    split at e
    · exact keeps e fun v hv => hv.dataAtFlow _ _ _
    · exact same e
  · change execAdvanceReceived s = _ at e
    unfold execAdvanceReceived at e
    split at e
    · exact keeps e fun v hv => hv.advanceAtFlow _ _
    · exact same e
  · change execStatusReceived s = _ at e
    unfold execStatusReceived at e
    split at e
    · exact keeps e fun v hv => hv.statusAtFlow _ _ _ _
    · exact same e

/-- R143: the blocks that the partnership and the bulk path take. -/
theorem State.PartnershipLaws.linkBlockReceived {s t : State} (h : s.PartnershipLaws) {c : Instr}
    (hc : c ∈ [.helloReceived, .keepaliveReceived, .leaveReceived, .bulkReceived]) (e : exec c s = .next t) :
    t.PartnershipLaws := by
  simp only [List.mem_cons, List.not_mem_nil, or_false] at hc
  rcases hc with rfl | rfl | rfl | rfl
  · change execHelloReceived s = _ at e
    unfold execHelloReceived at e
    split at e
    · exact partnershipLaws_of_finish e ((h.modifyLink _).helloAtPartnership _ _ _)
    · cases e; exact h
  · change execKeepaliveReceived s = _ at e
    unfold execKeepaliveReceived at e
    split at e
    · exact partnershipLaws_of_finish e ((h.modifyLink _).ifAccepted _ fun _ hv => hv)
    · cases e; exact h
  · change execLeaveReceived s = _ at e
    unfold execLeaveReceived at e
    split at e
    · exact partnershipLaws_of_finish e ((h.modifyLink _).leaveAtPartnership _)
    · cases e; exact h
  · change execBulkReceived s = _ at e
    unfold execBulkReceived at e
    split at e
    · exact partnershipLaws_of_finish e ((h.modifyLink _).ifAccepted _ fun v hv =>
        hv.congr (bulkAtPath_part ..) (bulkAtPath_kept ..).1)
    · cases e; exact h

/-- R139, R140, R145: grants and the ends of transmissions. -/
theorem State.PartnershipLaws.transmission {s t : State} (h : s.PartnershipLaws) {c : Instr}
    (hc : c ∈ [.dataGrant, .statusGrant, .lifecycleGrant, .partnershipGrant, .bulkGrant, .linkTransmissionEnd,
      .wireTransmissionEnd]) (e : exec c s = .next t) : t.PartnershipLaws := by
  simp only [List.mem_cons, List.not_mem_nil, or_false] at hc
  rcases hc with rfl | rfl | rfl | rfl | rfl | rfl | rfl
  · change execDataGrant s = _ at e
    unfold execDataGrant at e
    split at e
    · exact partnershipLaws_of_finish e ((h.modifyLink _).dataGrantAt _ _)
    · cases e; exact h
  · change execStatusGrant s = _ at e
    unfold execStatusGrant at e
    split at e
    · exact partnershipLaws_of_finish e ((h.modifyLink _).statusGrantAt _)
    · cases e; exact h
  · change execLifecycleGrant s = _ at e
    unfold execLifecycleGrant at e
    split at e
    · exact partnershipLaws_of_finish e ((h.modifyLink _).lifecycleGrantAt _)
    · cases e; exact h
  · change execPartnershipGrant s = _ at e
    unfold execPartnershipGrant at e
    split at e
    · exact partnershipLaws_of_finish e (h.modifyLink _).partnershipGrantAt
    · cases e; exact h
  · change execBulkGrant s = _ at e
    unfold execBulkGrant at e
    split at e
    · exact partnershipLaws_of_finish e (h.modifyLink _).bulkGrantAt
    · cases e; exact h
  · change execLinkTransmissionEnd s = _ at e
    unfold execLinkTransmissionEnd at e
    split at e
    · exact partnershipLaws_of_finish e ((h.modifyLink _).linkEnd _)
    · cases e; exact h
    · cases e; exact h
  · change execWireTransmissionEnd s = _ at e
    unfold execWireTransmissionEnd at e
    split at e
    · exact partnershipLaws_of_finish e ((h.wireEnd _).congr rfl rfl)
    · cases e; exact h

@[simp] theorem retxExpired_suspended (fl : Flow) (p : Profile) : (fl.retxExpired p).suspended = fl.suspended := by
  obtain ⟨win, e, -⟩ := fl.loseOldest_eq
  unfold Flow.retxExpired
  rw [e]
  rfl

/-- R18, R41, R53, R59: the timers of a flow. -/
theorem State.PartnershipLaws.flowTimer {s t : State} (h : s.PartnershipLaws) {c : Instr} (f : FlowId)
    (hc : c ∈ [.retransmissionTimerExpiry f, .closeSeriesExpiry f, .openTimerExpiry f, .ackDelayTimerExpiry f])
    (e : exec c s = .next t) : t.PartnershipLaws := by
  simp only [List.mem_cons, List.not_mem_nil, or_false] at hc
  rcases hc with rfl | rfl | rfl | rfl
  · change execRetransmissionTimerExpiry f s = _ at e
    unfold execRetransmissionTimerExpiry at e
    simp only at e
    split at e
    · exact partnershipLaws_of_finish e (h.modifyFlow (retxExpired_state ..) (retxExpired_suspended ..))
    · cases e; exact h
  · change execCloseSeriesExpiry f s = _ at e
    unfold execCloseSeriesExpiry at e
    simp only at e
    split at e
    · exact partnershipLaws_of_finish e (h.closeSeriesExpired f)
    · cases e; exact h
  · change execOpenTimerExpiry f s = _ at e
    unfold execOpenTimerExpiry at e
    split at e
    · exact partnershipLaws_of_finish e (h.openTimerExpired f)
    · cases e; exact h
  · change execAckDelayTimerExpiry f s = _ at e
    unfold execAckDelayTimerExpiry at e
    simp only at e
    split at e
    · have hm := h.modifyFlow (f := f) (g := fun fl => { fl with statusPending := true, ackTimer := .stopped }) rfl rfl
      exact partnershipLaws_of_finish e hm
    · cases e; exact h

/-- R75, R81 to R84, R155: the timers of the partnership and of the binding. -/
theorem State.PartnershipLaws.deviceTimer {s t : State} (h : s.PartnershipLaws) {c : Instr}
    (hc : c ∈ [.joinTimerExpiry, .helloTimerExpiry, .silenceTimerExpiry, .keepaliveTimerExpiry, .holdTimerExpiry,
      .leaseTimerExpiry]) (e : exec c s = .next t) : t.PartnershipLaws := by
  simp only [List.mem_cons, List.not_mem_nil, or_false] at hc
  rcases hc with rfl | rfl | rfl | rfl | rfl | rfl
  · change execJoinTimerExpiry s = _ at e
    unfold execJoinTimerExpiry at e
    split at e
    · next hs => exact partnershipLaws_of_finish e (h.joinExpired hs.1)
    · cases e; exact h
  · change execHelloTimerExpiry s = _ at e
    unfold execHelloTimerExpiry at e
    split at e
    · next hr => exact partnershipLaws_of_finish e (h.helloTimerExpired hr)
    · cases e; exact h
  · change execSilenceTimerExpiry s = _ at e
    unfold execSilenceTimerExpiry at e
    split at e
    · next hs => exact partnershipLaws_of_finish e (h.silenceExpired hs.1)
    · cases e; exact h
  · change execKeepaliveTimerExpiry s = _ at e
    unfold execKeepaliveTimerExpiry at e
    split at e
    · next hs => exact partnershipLaws_of_finish e (h.keepaliveTimerExpired hs.1)
    · cases e; exact h
  · change execHoldTimerExpiry s = _ at e
    unfold execHoldTimerExpiry at e
    split at e
    · next hs => exact partnershipLaws_of_finish e (h.holdExpired hs.1)
    · cases e; exact h
  · change execLeaseTimerExpiry s = _ at e
    unfold execLeaseTimerExpiry at e
    split at e
    · exact partnershipLaws_of_finish e (h.congr rfl rfl)
    · cases e; exact h

theorem State.PartnershipLaws.execRestart {s t : State} (h : s.PartnershipLaws)
    (e : execRestart s = .next t) : t.PartnershipLaws := by
  unfold Machine.execRestart at e
  split at e
  · cases e; exact h
  · split at e
    · exact partnershipLaws_of_finish e
        (State.PartnershipLaws.executeRestart (s := s.begin _) (h.congr rfl rfl) _)
    · cases e; exact h

theorem exec_keeps_partnershipLaws {c : Instr} {s t : State} (h : s.PartnershipLaws) (e : exec c s = .next t) :
    t.PartnershipLaws := by
  cases c with
  | powerOnReset => cases e; exact powerOn_partnershipLaws _ _ _
  | wireFrameReception received bad => exact partnershipLaws_of_finish e (h.receiveFrame received bad)
  | linkBlockDelivery received bad =>
    exact partnershipLaws_of_finish e (h.congr (deliverBlock_part s received bad) (deliverBlock_kept ..).1)
  | slotSignalled | slotWithdrawn => exact partnershipLaws_of_finish e (h.modifyLink _)
  | wiredLinkUp => exact partnershipLaws_of_finish e (h.congr rfl rfl)
  | wiredLinkDown => exact partnershipLaws_of_finish e h.wireDown
  | helloReceived | keepaliveReceived | leaveReceived | bulkReceived => exact h.linkBlockReceived (by simp) e
  | openReceived | openAckReceived | closeReceived | closeAckReceived | abortReceived | dataReceived
  | advanceReceived | statusReceived => exact h.flowBlockReceived (by simp) e
  | dataGrant | statusGrant | lifecycleGrant | partnershipGrant | bulkGrant | linkTransmissionEnd
  | wireTransmissionEnd => exact h.transmission (by simp) e
  | retransmissionTimerExpiry f | closeSeriesExpiry f | openTimerExpiry f | ackDelayTimerExpiry f =>
    exact h.flowTimer f (by simp) e
  | joinTimerExpiry | helloTimerExpiry | silenceTimerExpiry | keepaliveTimerExpiry | holdTimerExpiry
  | leaseTimerExpiry => exact h.deviceTimer (by simp) e
  | restart => exact h.execRestart e
  | identify =>
    exact h.execute (named := (· == codeIdentify)) (work := identifyWork) e fun r u hu => hu.bodyless r hu
  | bind =>
    exact h.execute (named := (· == codeBind)) (work := bindWork) e
      fun r u hu => hu.keepsPlaces (bindWork_keepsPlaces r u)
  | unbind =>
    exact h.execute (named := (· == codeUnbind)) (work := unbindWork) e
      fun r u hu => hu.bodyless r (hu.congr rfl rfl)
  | readTable =>
    exact h.execute (named := (· == codeReadTable)) (work := readTableWork) e
      fun r u hu => hu.keepsPlaces (readTableWork_keepsPlaces r u)
  | writeTable =>
    exact h.execute (named := (· == codeWriteTable)) (work := writeTableWork) e
      fun r u hu => hu.keepsPlaces (writeTableWork_keepsPlaces r u)
  | copyBank =>
    exact h.execute (named := (· == codeCopyBank)) (work := copyBankWork) e
      fun r u hu => hu.bodyless r (hu.congr rfl rfl)
  | commit =>
    exact h.execute (named := (· == codeCommit)) (work := commitWork) e
      fun r u hu => hu.keepsPlaces (commitWork_keepsPlaces r u)
  | flowOpen =>
    exact h.execute (named := (· == codeFlowOpen)) (work := flowOpenWork) e
      fun r u hu => hu.withFlow r fun f => hu.flowOpenAt f _
  | flowClose =>
    exact h.execute (named := (· == codeFlowClose)) (work := flowCloseWork) e
      fun r u hu => hu.withFlow r fun f => hu.flowCloseAt f _
  | flowAbort =>
    exact h.execute (named := (· == codeFlowAbort)) (work := flowAbortWork) e
      fun r u hu => hu.withFlow r fun f => hu.flowAbortAt f
  | flowReset =>
    exact h.execute (named := (· == codeFlowReset)) (work := flowResetWork) e
      fun r u hu => hu.withFlow r fun f => hu.flowResetAt f
  | flowStatus =>
    exact h.execute (named := (· == codeFlowStatus)) (work := flowStatusWork) e
      fun r u hu => hu.withFlow r fun f => hu
  | linkJoin =>
    exact h.execute (named := (· == codeLinkJoin)) (work := linkJoinWork) e
      fun r u hu => hu.bodyless r (hu.joinAt _)
  | linkLeave =>
    exact h.execute (named := (· == codeLinkLeave)) (work := linkLeaveWork) e
      fun r u hu => hu.bodyless r hu.leaveWork
  | linkStatus =>
    exact h.execute (named := (· == codeLinkStatus)) (work := linkStatusWork) e fun r u hu => hu.bodyless r hu
  | readCounters =>
    exact h.execute (named := (· == codeReadCounters)) (work := readCountersWork) e
      fun r u hu => hu.keepsPlaces (readCountersWork_keepsPlaces r u)
  | setParams =>
    exact h.execute (named := (· == codeSetParams)) (work := setParamsWork) e
      fun r u hu => hu.keepsPlaces (setParamsWork_keepsPlaces r u)
  | readParams =>
    exact h.execute (named := (· == codeReadParams)) (work := readParamsWork) e fun r u hu => hu.bodyless r hu
  | setNotices =>
    exact h.execute (named := (· == codeSetNotices)) (work := setNoticesWork) e
      fun r u hu => hu.keepsPlaces (setNoticesWork_keepsPlaces r u)
  | unknownRequest =>
    exact h.execute (named := fun code => !requestCodes.contains code)
      (work := fun _ s => (.plain .badRequest, s)) e fun r u hu => hu

/-- Table 4.1, R66 to R69: a step keeps the partnership laws. -/
theorem step_keeps_partnershipLaws {s t : State} (h : s.PartnershipLaws) (e : step s = .next t) :
    t.PartnershipLaws := by
  unfold step at e
  split at e
  · cases e; exact h.tick
  · next c rest _ => exact exec_keeps_partnershipLaws (s := s.withPending rest) (h.congr rfl rfl) e

end Sys2Proof.Machine

section
open Sys2Proof Sys2Proof.Machine

/-- Settles O11: the laws are kept by the passage of time and by each command. -/
theorem partnershipLawsKept : Obligations.PartnershipLawsKept := fun _ _ => step_keeps_partnershipLaws

end

namespace Sys2Proof.Machine

/-! ## The power-on values (R48, R71, R91, R106, R118, R141, R147, R148, R169) -/

/-- R91: with nothing reserved, every buffer is shared free. -/
theorem reset_sharedFree : State.reset.pool.sharedFree = 512 := by
  decide

theorem reset_flow (f : FlowId) : State.reset.flow f = Flow.initial 100 := by
  simp [State.reset, State.powerOn, State.flow]

theorem reset_held (f : FlowId) : State.reset.held f = 0 := by
  simp [State.reset, State.powerOn, State.held, Pool.initial, readAt]

theorem reset_entry_invalid (bank : BankId) (i : Fin 128) :
    (readAt (State.reset.tables.bank bank).entries i).valid = false := by
  cases bank <;> simp [State.reset, State.powerOn, TableStore.initial, TableStore.bank, Bank.initial, readAt] <;> rfl

theorem reset_profile_disabled (bank : BankId) (f : FlowId) :
    (readAt (State.reset.tables.bank bank).profiles f).mode = .disabled := by
  cases bank <;> simp [State.reset, State.powerOn, TableStore.initial, TableStore.bank, Bank.initial, readAt] <;> rfl

end Sys2Proof.Machine

section
open Sys2Proof Sys2Proof.Machine

/-- Settles O5: the power-on state is a literal, and POWER_ON_RESET answers with it. -/
theorem powerOnValues : Obligations.PowerOnValues := by
  refine ⟨⟨fun f => ?_, rfl, reset_sharedFree, rfl, rfl, rfl, rfl, rfl, rfl, rfl, reset_entry_invalid,
    reset_profile_disabled, rfl, rfl, rfl, rfl, rfl, rfl, rfl, rfl, rfl, rfl, rfl, rfl, rfl, rfl, rfl, rfl, rfl⟩,
    fun s => ⟨_, rfl, rfl, rfl, rfl, rfl, rfl, rfl, rfl, rfl, rfl, rfl, rfl, rfl, rfl, rfl, rfl⟩⟩
  rw [reset_flow]
  exact ⟨rfl, rfl, rfl, rfl, rfl, rfl, rfl, rfl, rfl, rfl, rfl, rfl, rfl, rfl, reset_held f⟩

end

namespace Sys2Proof.Machine

/-! ## A lifecycle grant (R50, R53, R55, R58, R59, R135, R140) -/

theorem execLifecycleGrant_eq {s : State} {f : FlowId} (h : s.link.grant = some (.lifecycle f)) :
    exec .lifecycleGrant s = .next (s.declined.lifecycleGrantAt f).finish := by
  simp only [exec, execLifecycleGrant, h]
  rfl

/-- R50, R139: a lifecycle grant that finds nothing to send is declined. -/
theorem lifecycleGrantAt_declined {s : State} {f : FlowId}
    (h : s.part.state ≠ .partnered ∨ s.part.ownEpoch = none ∨ (s.flow f).suspended = true ∨
      (s.flow f).pendingBlock = none) : s.declined.lifecycleGrantAt f = s.declined := by
  unfold State.lifecycleGrantAt
  split
  · rfl
  · next epoch he =>
    obtain ⟨hp, hown⟩ : s.part.state = .partnered ∧ s.part.ownEpoch = some epoch :=
      Option.ite_none_right_eq_some.1 he
    have hf : s.declined.flow f = s.flow f := rfl
    rcases h with h | h | h | h
    · exact absurd hp h
    · rw [h] at hown; cases hown
    · rw [if_pos (hf ▸ h)]
    · split
      · rfl
      · split
        · rfl
        · next b hb => rw [hf, h] at hb; cases hb

/-- R135, R140: the state in which a flow's pending block has been taken and presented. -/
def State.blockTaken (s : State) (f : FlowId) (b : LinkBlock) : State :=
  { s.presenting .plain b with
    flows := writeAt s.flows f { s.flow f with pendingBlock := none }
    link := (s.presenting .plain b).link.unqueued f }

@[simp] theorem blockTaken_flow (s : State) (f : FlowId) (b : LinkBlock) :
    (s.blockTaken f b).flow f = { s.flow f with pendingBlock := none } := readAt_writeAt_same _ _ _

/-- R50, R140: a lifecycle grant takes the pending block. -/
theorem execLifecycleGrant_taken {s : State} {f : FlowId} {epoch : Epoch} {b : LifecycleBlock}
    (hg : s.link.grant = some (.lifecycle f)) (hp : s.part.state = .partnered) (he : s.part.ownEpoch = some epoch)
    (hs : (s.flow f).suspended = false) (hb : (s.flow f).pendingBlock = some b) :
    exec .lifecycleGrant s =
      .next ((s.blockTaken f ⟨epoch, LifecycleBlock.body f b⟩).afterTaking f b).finish := by
  have hs' : (s.declined.flow f).suspended = false := hs
  have hb' : (s.declined.flow f).pendingBlock = some b := hb
  have taken : (s.declined.clearPending f).present ⟨epoch, LifecycleBlock.body f b⟩ .plain =
      s.blockTaken f ⟨epoch, LifecycleBlock.body f b⟩ := by
    rw [present_eq, clearPending_eq, if_pos (by exact hp)]
    rfl
  rw [execLifecycleGrant_eq hg]
  simp only [State.lifecycleGrantAt, carrierEpoch_of_partnered hp he, hs', hb', taken]
  rfl

/-- R135: a flow leaves its place in the lifecycle order when its next block becomes pending. -/
@[simp] theorem unqueued_queued (l : LinkPort) (f : FlowId) : (l.unqueued f).queued f = l.queued f := by
  simp [LinkPort.queued, LinkPort.unqueued]

/-- R55, R60: a block that follows one that displaced it. -/
theorem blockTaken_makePending (s : State) (f : FlowId) (b : LinkBlock) (owed : LifecycleBlock) :
    (s.blockTaken f b).makePending f owed = { s.presenting .plain b with
      flows := writeAt s.flows f { s.flow f with pendingBlock := some owed }
      link := (s.presenting .plain b).link.queued f } := by
  rw [makePending_queued, blockTaken_flow]
  simp only [State.blockTaken, writeAt_writeAt, unqueued_queued]

/-- R1, R26, R51: an entry to CLOSED or FAILED from a state that differs in what FlowEnded does not read. -/
theorem State.FlowEnded.congr {s u t : State} {f : FlowId} {new : FlowState} (h : u.FlowEnded t f new)
    (hk : (u.flow f).lower = (s.flow f).lower ∧ (u.flow f).next = (s.flow f).next ∧
      (u.flow f).expected = (s.flow f).expected ∧ (u.flow f).rto = (s.flow f).rto)
    (hc : (u.flow f).collectedBuffers = (s.flow f).collectedBuffers) (ho : ∀ k, k ≠ f → u.flow k = s.flow k)
    (hp : u.pool = s.pool) : s.FlowEnded t f new where
  state := h.state
  atRest := h.atRest
  kept := by simpa only [hk] using h.kept
  others k hk := (h.others k hk).trans (ho k hk)
  held := by simpa only [hc, State.held, hp] using h.held
  heldOthers k hk := by simpa only [State.held, hp] using h.heldOthers k hk
  free := by simpa only [hc, hp] using h.free
  bulkHeld := h.bulkHeld.trans (congrArg _ hp)
  reservation := by simpa only [hp] using h.reservation

/-- R58: a block after which the drain, if it waited for nothing else, ends. -/
theorem afterTaking_drains {s : State} {f : FlowId} {b : LifecycleBlock}
    (h : (∃ verdict, b = .openAck verdict) ∧ ((s.flow f).state ≠ .opening ∨ (s.flow f).openTimer ≠ .stopped) ∨
      b = .closeAck ∧ ((s.flow f).state ≠ .closing ∨ (s.flow f).retxTimer ≠ .stopped) ∨ b = .abort) :
    s.afterTaking f b = s.completeDrain f := by
  unfold State.afterTaking
  rcases h with ⟨⟨verdict, rfl⟩, h⟩ | ⟨rfl, h⟩ | rfl
  · exact if_neg (by tauto)
  · exact if_neg (by tauto)
  · rfl

end Sys2Proof.Machine

section
open Sys2Proof Sys2Proof.Machine

/-- Settles O28: by the block taken, and for the last three by whether a drain waited for it alone. -/
theorem lifecycleGrantTakesBlock : Obligations.LifecycleGrantTakesBlock := by
  refine ⟨fun s f hg h => by rw [execLifecycleGrant_eq hg, lifecycleGrantAt_declined h], ?_⟩
  intro s f epoch hg hp he hs fl order
  refine ⟨fun window mode hb => ?_, fun hb => ?_, fun verdict hb hst ht => ?_, fun hb hst ht => ?_,
    fun body hbody => ?_⟩
  · rw [execLifecycleGrant_taken hg hp he hs hb]
    simp only [State.afterTaking, State.modifyFlow, blockTaken_flow]
    simp only [State.blockTaken, writeAt_writeAt]
    rfl
  · rw [execLifecycleGrant_taken hg hp he hs hb]
    simp only [State.afterTaking, State.modifyFlow, blockTaken_flow]
    simp only [State.blockTaken, writeAt_writeAt]
    rfl
  · rw [execLifecycleGrant_taken hg hp he hs hb]
    simp only [State.afterTaking, blockTaken_flow]
    rw [if_pos ⟨hst, ht⟩, State.makeOpenPending, blockTaken_makePending]
    rfl
  · rw [execLifecycleGrant_taken hg hp he hs hb]
    simp only [State.afterTaking, blockTaken_flow]
    rw [if_pos ⟨hst, ht⟩, blockTaken_makePending]
    rfl
  · have hexec : exec .lifecycleGrant s = .next (State.completeDrain (s.blockTaken f ⟨epoch, body⟩) f).finish := by
      rcases hbody with ⟨verdict, hb, rfl, h⟩ | ⟨hb, rfl, h⟩ | ⟨hb, rfl⟩
      · rw [execLifecycleGrant_taken hg hp he hs hb,
          afterTaking_drains (.inl ⟨⟨_, rfl⟩, by rw [blockTaken_flow]; exact h⟩)]
        rfl
      · rw [execLifecycleGrant_taken hg hp he hs hb,
          afterTaking_drains (.inr (.inl ⟨rfl, by rw [blockTaken_flow]; exact h⟩))]
        rfl
      · rw [execLifecycleGrant_taken hg hp he hs hb, afterTaking_drains (.inr (.inr rfl))]
        rfl
    intro p
    refine ⟨fun hw => ?_, fun hst hq hwin hx => ?_⟩
    · rw [hexec, completeDrain_waits (.inl (Bool.eq_false_iff.2 fun hd => ?_))]
      · rfl
      · rw [blockTaken_flow] at hd
        obtain ⟨hst, -, hq, hwin, -⟩ := (drained_iff _).1 hd
        rcases hw with hw | hw | hw
        · exact hw hst
        · exact hw hq
        · exact hw hwin
    · have hdr : ({ fl with pendingBlock := none } : Machine.Flow).drained = true :=
        (drained_iff _).2 ⟨hst, hs, hq, hwin, rfl⟩
      refine ⟨fun ho => ?_, fun ho hheld => ?_⟩
      · rw [hexec, completeDrain_local (blockTaken_flow ..) hdr ho hx]
        simp only [State.blockTaken, writeAt_writeAt, unqueued_queued]
        rfl
      · have hb : fl.reorder.countP (·.holdsBuffer) ≤ s.held f := by
          simpa [Flow.collectedBuffers, hq, hwin] using hheld
        obtain ⟨hended, hblock, hcause, hlink, hraises, hrest⟩ :=
          completeDrain_peer rfl (blockTaken_flow ..) hdr ho hx hb
        refine ⟨_, hexec, ?_, hblock, hcause, ?_, hraises.congr rfl rfl rfl rfl rfl, ?_⟩
        · refine hended.congr ?_ ?_ (fun k hk => readAt_writeAt_ne _ _ (Ne.symm hk)) rfl
          · rw [blockTaken_flow]; exact ⟨rfl, rfl, rfl, rfl⟩
          · rw [blockTaken_flow]; rfl
        · rw [hlink]
          simp only [State.blockTaken, unqueued_queued]
          rfl
        · exact { hrest with
            flows := fun h => absurd (by simp) h
            link := fun h => absurd (by simp) h }

end

namespace Sys2Proof.Machine

/-! ## Blocks that reach a flow (R88, R144) -/

theorem exec_dataReceived_at {s : State} {f : FlowId} {epoch : Epoch} {q : Seq} {frame : Frame}
    (h : s.Receives ⟨epoch, .data f q frame⟩) :
    exec .dataReceived s = .next (s.receiving.dataAtFlow f q frame).finish := by
  obtain ⟨rest, hl⟩ := toFlows_of_receives h
  simp only [exec, execDataReceived, hl]
  rw [ifAccepted_of_receives (b := ⟨epoch, .data f q frame⟩) h]

theorem exec_advanceReceived_at {s : State} {f : FlowId} {epoch : Epoch} {q : Seq}
    (h : s.Receives ⟨epoch, .advance f q⟩) :
    exec .advanceReceived s = .next (s.receiving.advanceAtFlow f q).finish := by
  obtain ⟨rest, hl⟩ := toFlows_of_receives h
  simp only [exec, execAdvanceReceived, hl]
  rw [ifAccepted_of_receives (b := ⟨epoch, .advance f q⟩) h]

theorem exec_closeReceived {s : State} {f : FlowId} {epoch : Epoch} (h : s.Receives ⟨epoch, .close f⟩) :
    exec .closeReceived s = .next (s.receiving.closeAtFlow f).finish := by
  obtain ⟨rest, hl⟩ := toFlows_of_receives h
  simp only [exec, execCloseReceived, hl]
  rw [ifAccepted_of_receives (b := ⟨epoch, .close f⟩) h]

theorem exec_closeAckReceived {s : State} {f : FlowId} {epoch : Epoch} (h : s.Receives ⟨epoch, .closeAck f⟩) :
    exec .closeAckReceived s = .next (s.receiving.closeAckAtFlow f).finish := by
  obtain ⟨rest, hl⟩ := toFlows_of_receives h
  simp only [exec, execCloseAckReceived, hl]
  rw [ifAccepted_of_receives (b := ⟨epoch, .closeAck f⟩) h]

theorem exec_abortReceived {s : State} {f : FlowId} {epoch : Epoch} (h : s.Receives ⟨epoch, .abort f⟩) :
    exec .abortReceived s = .next (s.receiving.abortAtFlow f).finish := by
  obtain ⟨rest, hl⟩ := toFlows_of_receives h
  simp only [exec, execAbortReceived, hl]
  rw [ifAccepted_of_receives (b := ⟨epoch, .abort f⟩) h]

/-! ## Blocks that their destination does not take (R61, R63, R65, R88) -/

/-- R65: DATA and ADVANCE at a flow that is not in OPEN, DRAINING or CLOSING go the same way. -/
theorem dataAtFlow_elsewhere {s : State} {f : FlowId} (h : (s.flow f).takesBlocks = false) (q : Seq) (frame : Frame) :
    s.dataAtFlow f q frame = s.dataElsewhere f := by
  rw [State.dataAtFlow, if_neg (by simpa [Flow.takesBlocks] using h)]

theorem advanceAtFlow_elsewhere {s : State} {f : FlowId} (h : (s.flow f).takesBlocks = false) (q : Seq) :
    s.advanceAtFlow f q = s.dataElsewhere f := by
  rw [State.advanceAtFlow, if_neg (by simpa [Flow.takesBlocks] using h)]

theorem dataElsewhere_closed {s : State} {f : FlowId} (h : (s.flow f).state = .closed) :
    s.dataElsewhere f = s.makePending f .abort := by
  simp only [State.dataElsewhere, h]

theorem dataElsewhere_opening {s : State} {f : FlowId} (h : (s.flow f).state = .opening) :
    s.dataElsewhere f = s.countStale := by
  simp only [State.dataElsewhere, h]

theorem dataElsewhere_failed {s : State} {f : FlowId} (h : (s.flow f).state = .failed) :
    s.dataElsewhere f = s := by
  simp only [State.dataElsewhere, h]

theorem statusAtFlow_opening {s : State} {f : FlowId} (h : (s.flow f).state = .opening) (a : Seq) (map : BitVec 64)
    (high : Option Seq) : s.statusAtFlow f a map high = s.countStale := by
  simp only [State.statusAtFlow, h]

theorem statusAtFlow_ignored {s : State} {f : FlowId} (h : (s.flow f).state = .closed ∨ (s.flow f).state = .failed)
    (a : Seq) (map : BitVec 64) (high : Option Seq) : s.statusAtFlow f a map high = s := by
  rcases h with h | h <;> simp only [State.statusAtFlow, h]

/-- R144: each kind of block that is routed to the reliability engine meets the test of its epoch. -/
theorem exec_flowBlock {s : State} {epoch : Epoch} {body : BlockBody} {rest : List LinkBlock} {c : Instr}
    (h : s.link.toFlows = ⟨epoch, body⟩ :: rest) (hc : arrivalOf body = some c) :
    ∃ d, exec c s = .next (s.dropFlowBlock.ifAccepted epoch d).finish := by
  cases body <;> cases hc
  case openFlow => exact ⟨_, by simp only [exec, execOpenReceived, h]; rfl⟩
  case openAck => exact ⟨_, by simp only [exec, execOpenAckReceived, h]; rfl⟩
  case close => exact ⟨_, by simp only [exec, execCloseReceived, h]; rfl⟩
  case closeAck => exact ⟨_, by simp only [exec, execCloseAckReceived, h]; rfl⟩
  case abort => exact ⟨_, by simp only [exec, execAbortReceived, h]; rfl⟩
  case data => exact ⟨_, by simp only [exec, execDataReceived, h]; rfl⟩
  case status => exact ⟨_, by simp only [exec, execStatusReceived, h]; rfl⟩
  case advance => exact ⟨_, by simp only [exec, execAdvanceReceived, h]; rfl⟩

theorem dropFlowBlock_eq {s : State} {b : LinkBlock} {rest : List LinkBlock} (h : s.link.toFlows = b :: rest) :
    s.dropFlowBlock = { s with link := { s.link with toFlows := rest } } := by
  simp [State.dropFlowBlock, State.modifyLink, h]

/-- R88: the epoch test fails outside PARTNERED and for another epoch. -/
theorem accepts_eq_false {s : State} {epoch : Epoch}
    (h : s.part.state ≠ .partnered ∨ s.part.partnerEpoch ≠ some epoch) : s.accepts epoch = false := by
  simpa [State.accepts, imp_iff_not_or] using h

/-- R65: a block of traffic at a flow that takes none, in the state in which it arrives. -/
theorem exec_traffic_elsewhere {s : State} {f : FlowId} {c : Instr} {b : LinkBlock} (hr : s.Receives b)
    (hc : (∃ q frame, b.body = .data f q frame ∧ c = .dataReceived) ∨
      (∃ q, b.body = .advance f q ∧ c = .advanceReceived))
    (ht : (s.flow f).takesBlocks = false) : exec c s = .next (s.receiving.dataElsewhere f).finish := by
  obtain ⟨epoch, body⟩ := b
  rcases hc with ⟨q, frame, rfl, rfl⟩ | ⟨q, rfl, rfl⟩
  · rw [exec_dataReceived_at hr, dataAtFlow_elsewhere (s := s.receiving) ht]
  · rw [exec_advanceReceived_at hr, advanceAtFlow_elsewhere (s := s.receiving) ht]

end Sys2Proof.Machine

section
open Sys2Proof Sys2Proof.Machine

/-- Settles O34: by the state of the flow that a block finds, and by the test of its epoch. -/
theorem blocksNotTaken : Obligations.BlocksNotTaken := by
  refine ⟨fun s f c b hr hc => ?_, fun s f epoch => ⟨fun hr hs => ?_, fun hr hs => ?_⟩, ?_⟩
  · have traffic : c ≠ .statusReceived → (∃ q frame, b.body = .data f q frame ∧ c = .dataReceived) ∨
        (∃ q, b.body = .advance f q ∧ c = .advanceReceived) := by
      rcases hc with h | h | ⟨a, map, high, -, rfl⟩
      · exact fun _ => .inl h
      · exact fun _ => .inr h
      · exact fun h => absurd rfl h
    have status : c = .statusReceived →
        ∃ a map high, exec c s = .next (s.receiving.statusAtFlow f a map high).finish := by
      rintro rfl
      obtain ⟨epoch, body⟩ := b
      rcases hc with ⟨q, frame, -, h⟩ | ⟨q, -, h⟩ | ⟨a, map, high, rfl, -⟩
      · cases h
      · cases h
      · exact ⟨a, map, high, exec_statusReceived hr⟩
    refine ⟨fun hs hn => ?_, fun hs => ?_, fun hs => ?_⟩
    · rw [exec_traffic_elsewhere hr (traffic hn) (by simp [Flow.takesBlocks, hs]),
        dataElsewhere_closed (s := s.receiving) hs]
      rfl
    · by_cases hn : c = .statusReceived
      · obtain ⟨a, map, high, e⟩ := status hn
        rw [e, statusAtFlow_opening (s := s.receiving) hs]
        rfl
      · rw [exec_traffic_elsewhere hr (traffic hn) (by simp [Flow.takesBlocks, hs]),
          dataElsewhere_opening (s := s.receiving) hs]
        rfl
    · by_cases hn : c = .statusReceived
      · obtain ⟨a, map, high, e⟩ := status hn
        rw [e, statusAtFlow_ignored (s := s.receiving) (by exact hs.symm.imp And.left id)]
      · have hs : (s.flow f).state = .failed := by tauto
        rw [exec_traffic_elsewhere hr (traffic hn) (by simp [Flow.takesBlocks, hs]),
          dataElsewhere_failed (s := s.receiving) hs]
  · rw [exec_closeAckReceived hr, State.closeAckAtFlow, if_neg (by exact hs)]
  · rw [exec_abortReceived hr, State.abortAtFlow, 
      if_neg (by exact Bool.not_eq_true _ ▸ (Flow.inUse_eq_false_iff _).2 hs)]
  · intro s epoch body rest stale
    refine ⟨fun hl hp he => ?_, fun h => ⟨fun hl => ?_, fun c hl hc => ?_, fun cls frame hl => ?_⟩⟩
    · simp only [exec, execKeepaliveReceived, hl]
      rw [ifAccepted_of_accepts (by simp [State.accepts, hp, he])]
      rfl
    · simp only [exec, execKeepaliveReceived, hl]
      rw [ifAccepted_of_stale (s := s.modifyLink _) (accepts_eq_false h)]
      rfl
    · obtain ⟨d, e⟩ := exec_flowBlock hl hc
      rw [e, ifAccepted_of_stale (s := s.dropFlowBlock) (accepts_eq_false h), dropFlowBlock_eq hl]
      rfl
    · simp only [exec, execBulkReceived, hl]
      rw [ifAccepted_of_stale (s := s.modifyLink _) (accepts_eq_false h)]
      rfl

end

namespace Sys2Proof.Machine

/-! ## The events that end one flow (R51, R53, R56, R59, R61, R63) -/

/-- R51: an entry to CLOSED or FAILED, with the pending block kept or cleared. -/
theorem endFlow_effect (s : State) (f : FlowId) (new : FlowState) (cause : FlowCause)
    (failure : Option FailureCause) (keep : Bool) (outcome : DeferredCode → Completion × Option Detail)
    (he : s.engine.executing = none) (hb : (s.flow f).collectedBuffers ≤ s.held f)
    (hk : keep = true → ∀ b ∈ (s.flow f).pendingBlock, b.owedAtRest) :
    ∃ t, s.endFlow f new cause failure keep outcome = t ∧ s.FlowEnded t f new ∧
      (t.flow f).pendingBlock = (if keep then (s.flow f).pendingBlock else none) ∧
      (t.flow f).failureCause = failure.or (s.flow f).failureCause ∧
      t.link = (if keep then s.link else s.link.unqueued f) ∧
      s.Raises t ((s.flow f).completion outcome ++ [.flowState f (s.flow f).state new cause]) ∧
      s.Unchanged [.flows, .pool, .link, .notices] t := by
  obtain ⟨armed, n, e, hlow⟩ := endFlow_raises s f new cause failure keep outcome he
  have hf : (s.endFlow f new cause failure keep outcome).flow f = (s.flow f).ended new failure keep := by
    rw [e]; exact readAt_writeAt_same _ _ _
  refine ⟨_, rfl, flowEnded_of_ended hb (by rw [e]) (by rw [e]) ?_, by rw [hf]; rfl, by rw [hf]; rfl, by rw [e],
    ⟨n, by rw [e]; exact hlow, by rw [e]⟩, ?_⟩
  · cases keep with
    | false => simp [Flow.ended]
    | true => exact hk rfl
  · rw [e]
    constructor <;> simp

/-- R51: an entry that clears the pending block. -/
theorem endFlow_dropping (s : State) (f : FlowId) (new : FlowState) (cause : FlowCause)
    (failure : Option FailureCause) (outcome : DeferredCode → Completion × Option Detail)
    (he : s.engine.executing = none) (hb : (s.flow f).collectedBuffers ≤ s.held f) :
    ∃ t, s.endFlow f new cause failure false outcome = t ∧ s.FlowEnded t f new ∧ (t.flow f).pendingBlock = none ∧
      (t.flow f).failureCause = failure.or (s.flow f).failureCause ∧ t.link = s.link.unqueued f ∧
      s.Raises t ((s.flow f).completion outcome ++ [.flowState f (s.flow f).state new cause]) ∧
      s.Unchanged [.flows, .pool, .link, .notices] t :=
  endFlow_effect s f new cause failure false outcome he hb (by simp)

/-- R51 step 4, R59, R61: an entry to CLOSED at which an owed CLOSE_ACK stays pending. -/
theorem closeFlow_owed (s : State) (f : FlowId) (cause : FlowCause)
    (outcome : DeferredCode → Completion × Option Detail) (he : s.engine.executing = none)
    (hb : (s.flow f).collectedBuffers ≤ s.held f) :
    ∃ t, s.closeFlow f cause (s.owesCloseAck f) outcome = t ∧ s.FlowEnded t f .closed ∧
      ((s.flow f).pendingBlock = some .closeAck → (t.flow f).pendingBlock = some .closeAck ∧ t.link = s.link) ∧
      (¬ (s.flow f).pendingBlock = some .closeAck → (t.flow f).pendingBlock = none ∧
        t.link = s.link.unqueued f) ∧
      (t.flow f).failureCause = (s.flow f).failureCause ∧
      s.Raises t ((s.flow f).completion outcome ++ [.flowState f (s.flow f).state .closed cause]) ∧
      s.Unchanged [.flows, .pool, .link, .notices] t := by
  have howe : s.owesCloseAck f = true ↔ (s.flow f).pendingBlock = some .closeAck := beq_iff_eq
  obtain ⟨t, e, hended, hblock, hcause, hlink, hraises, hrest⟩ :=
    endFlow_effect s f .closed cause none (s.owesCloseAck f) outcome he hb fun h b hp => by
      rw [howe.1 h] at hp
      cases hp
      rfl
  refine ⟨t, e, hended, fun h => ?_, fun h => ?_, hcause, hraises, hrest⟩
  · rw [hblock, hlink, howe.2 h]
    exact ⟨h, rfl⟩
  · have hno : s.owesCloseAck f = false := Bool.eq_false_iff.2 fun h' => h (howe.1 h')
    rw [hblock, hlink, hno]
    exact ⟨rfl, rfl⟩

/-- R88: FlowEnded reads nothing that taking an accepted block changes. -/
theorem FlowEnded_of_receiving {s t : State} {f : FlowId} {new : FlowState} (h : s.receiving.FlowEnded t f new) :
    s.FlowEnded t f new :=
  h.congr ⟨rfl, rfl, rfl, rfl⟩ rfl (fun _ _ => rfl) rfl

end Sys2Proof.Machine

section
open Sys2Proof Sys2Proof.Machine

/-- Settles O38: each event is one entry to CLOSED or FAILED, with its outcome and its cause. -/
theorem flowEndings : Obligations.FlowEndings := by
  intro s f epoch he hb fl owes
  refine ⟨fun hs ht ha => ?_, fun hs hsus ht ha => ?_, fun hr hs => ?_, fun verdict hv hr hs => ?_, fun hr hu => ?_⟩
  · obtain ⟨t, e, h⟩ := endFlow_dropping s f .closed .openTimeout none (plainOutcome .timeout) he hb
    refine ⟨t, ?_, hs ▸ h⟩
    rw [exec, execOpenTimerExpiry, if_pos ⟨hs, by simp [fl, ht]⟩, State.openTimerExpired, if_neg (not_lt.2 ha), ← e]
    rfl
  · obtain ⟨t, e, h⟩ := closeFlow_owed s f .closeUnconfirmed (plainOutcome .unconfirmed) he hb
    refine ⟨t, ?_, hs ▸ h⟩
    simp only [exec, execCloseSeriesExpiry]
    rw [if_pos ⟨hs, hsus, by simp [fl, ht]⟩, State.closeSeriesExpired, if_neg (not_lt.2 ha), ← e]
  · obtain ⟨t, e, hended, howes, hnot, hcause, hraises, hrest⟩ :=
      closeFlow_owed s.receiving f .closeDone (plainOutcome .done) he hb
    refine ⟨t, ?_, FlowEnded_of_receiving hended, howes, hnot, hcause, ?_, hrest⟩
    · rw [exec_closeAckReceived hr, State.closeAckAtFlow, if_pos (by exact hs), ← e]
    · exact (hs ▸ hraises).congr rfl rfl rfl rfl rfl
  · obtain ⟨t, e, hended, hblock, hcause, hlink, hraises, hrest⟩ := endFlow_dropping s.receiving f .closed .openRefused
      none (fun _ => (.refused, Verdict.reason verdict)) he hb
    refine ⟨t, ?_, FlowEnded_of_receiving hended, hblock, hlink, hcause, ?_, hrest⟩
    · have hs' : (s.receiving.flow f).state = .opening := hs
      rw [exec_openAckReceived hr, State.openAckAtFlow, if_neg hv, State.refusalAtFlow, ← e]
      simp only [hs']
      rfl
    · exact (hs ▸ hraises).congr rfl rfl rfl rfl rfl
  · obtain ⟨t, e, hended, hblock, hcause, hlink, hraises, hrest⟩ := endFlow_dropping s.receiving f .failed .peerAbort
      (some .peerAbort) abortOutcome he hb
    refine ⟨t, ?_, FlowEnded_of_receiving hended, hblock, hlink, hcause, ?_, hrest⟩
    · rw [exec_abortReceived hr, State.abortAtFlow, if_pos (by exact hu), ← e]
      rfl
    · exact hraises.congr rfl rfl rfl rfl rfl

end

namespace Sys2Proof.Machine

/-! ## A CLOSE received (R58, R60) -/

/-- R58: a drain waits exactly while the flow is busy. -/
theorem drained_iff_not_busy {fl : Flow} (hs : fl.state = .draining) : fl.drained = true ↔ ¬ fl.busyDraining := by
  simp [drained_iff, Flow.busyDraining, hs]

/-- R60: the flow that a CLOSE finds OPEN, in the state that its change leaves. -/
theorem closeAtFlow_opened {s : State} {f : FlowId} (hs : (s.flow f).state = .opened)
    (he : s.engine.executing = none) : s.closeAtFlow f = State.completeDrain { s with
      flows := writeAt s.flows f { s.flow f with state := .draining, drainOrigin := some .peerEnd }
      notices := s.notices.takeAll [.flowState f .opened .draining .peerClose] } f := by
  have hs' : (readAt s.flows f).state = .opened := hs
  simp only [State.closeAtFlow, hs]
  simp [changeFlowState_eq, State.modifyFlow, State.flow, hs', he, Notices.takeAll]

/-- R60: the flow that a CLOSE finds DRAINING by its own FLOW_CLOSE. -/
theorem closeAtFlow_draining {s : State} {f : FlowId} (hs : (s.flow f).state = .draining)
    (ho : (s.flow f).drainOrigin = some .localEnd) (he : s.engine.executing = none) :
    s.closeAtFlow f = State.completeDrain { s with
      flows := writeAt s.flows f { s.flow f with drainOrigin := some .peerEnd, deferred := none }
      notices := s.notices.takeAll ((s.flow f).completion fun _ => (.done, none)) } f := by
  have hs' : (readAt s.flows f).state = .draining := hs
  simp only [State.closeAtFlow, hs, ho, if_true, State.completeDeferred, flow_modifyFlow_same]
  rw [complete_takeAll _ (s.flow f) _ (by exact he)]
  simp only [State.modifyFlow, State.flow, readAt_writeAt_same, writeAt_writeAt, hs']
  rfl

end Sys2Proof.Machine

section
open Sys2Proof Sys2Proof.Machine

/-- Settles O39: by the state of the flow, and by whether its drain has something left to wait for. -/
theorem closeReceived : Obligations.CloseReceived := by
  intro s f epoch he hr fl
  have hx := exec_closeReceived hr
  refine ⟨fun hs hbusy => ?_, fun hs hidle hb hd => ?_, fun hs ho hbusy => ?_, fun hs => ?_, fun hs => ?_⟩
  · rw [hx, closeAtFlow_opened (s := s.receiving) hs he, completeDrain_waits (.inl (Bool.eq_false_iff.2 fun h => ?_))]
    · rfl
    · rw [State.flow, readAt_writeAt_same] at h
      exact (drained_iff_not_busy (by rfl)).1 h hbusy
  · have hdr : ({ fl with state := .draining, drainOrigin := some .peerEnd } : Machine.Flow).drained = true :=
      (drained_iff_not_busy rfl).2 hidle
    have hfl : readAt (writeAt s.flows f { fl with state := .draining, drainOrigin := some .peerEnd }) f =
      { fl with state := .draining, drainOrigin := some .peerEnd } := readAt_writeAt_same _ _ _
    obtain ⟨hended, hblock, hcause, hlink, hraises, hrest⟩ := completeDrain_peer
      (s := { s.receiving with
        flows := writeAt s.flows f { fl with state := .draining, drainOrigin := some .peerEnd }
        notices := s.notices.takeAll [.flowState f .opened .draining .peerClose] })
      rfl hfl hdr rfl he (le_trans (by simp only [Flow.collectedBuffers]; omega) hb)
    refine ⟨_, by rw [hx, closeAtFlow_opened (s := s.receiving) hs he]; rfl, ?_, hblock, hcause, hlink, ?_, ?_⟩
    · refine hended.congr ?_ ?_ (fun k hk => readAt_writeAt_ne _ _ (Ne.symm hk)) rfl
      · rw [State.flow, hfl]; exact ⟨rfl, rfl, rfl, rfl⟩
      · rw [State.flow, hfl]; rfl
    · have hnone : ({ fl with state := .draining, drainOrigin := some .peerEnd } : Machine.Flow).completion
          (fun _ => (.done, none)) = [] := by simp [Flow.completion, hd]
      rw [hnone] at hraises
      exact hraises.congr rfl rfl rfl rfl rfl
    · exact { hrest with
        flows := fun h => absurd (by simp) h
        notices := fun h => absurd (by simp) h }
  · rw [hx, closeAtFlow_draining (s := s.receiving) hs ho he,
      completeDrain_waits (.inl (Bool.eq_false_iff.2 fun h => ?_))]
    · rfl
    · rw [State.flow, readAt_writeAt_same] at h
      exact (drained_iff_not_busy (by exact hs)).1 h hbusy
  · have hs' : (s.receiving.flow f).state = .closing ∨ (s.receiving.flow f).state = .closed := hs
    rw [hx, State.closeAtFlow]
    rcases hs' with h | h <;> simp only [h] <;> rfl
  · have hs' : (s.receiving.flow f).state = .opening ∨ (s.receiving.flow f).state = .failed ∨
      ((s.receiving.flow f).state = .draining ∧ (s.receiving.flow f).drainOrigin = some .peerEnd) := hs
    rw [hx, State.closeAtFlow]
    rcases hs' with h | h | ⟨h, ho⟩
    · simp only [h]
    · simp only [h]
    · simp only [h, ho]
      rfl

end

namespace Sys2Proof.Machine

/-! ## What the events of the partnership raise (R66 to R69, R89, R100, R170) -/

/-- R100, R170: `RaisesAmong`, under the mark of a request in execution or none. -/
def State.RaisesMarked (s t : State) (mark : Option RequestMark) (causes : List NoticeContent) : Prop :=
  ∃ all, t.notices = s.notices.takeMarked mark all ∧ LowPoolAmong s.params.poolLow all causes

theorem raisesAmong_of_marked {s t : State} {causes : List NoticeContent} (h : s.RaisesMarked t none causes) :
    s.RaisesAmong t causes := by
  obtain ⟨all, hn, hlow⟩ := h
  exact ⟨all, hn, hlow.others, hlow.low⟩

theorem takeMarked_append (n : Notices) (mark : Option RequestMark) (a b : List NoticeContent) :
    (n.takeMarked mark a).takeMarked mark b = n.takeMarked mark (a ++ b) := by
  simp [Notices.takeMarked, List.foldl_append]

/-- Causes raised one event after the other. -/
theorem State.RaisesMarked.trans {s u t : State} {mark : Option RequestMark} {a b : List NoticeContent}
    (h : s.RaisesMarked u mark a) (hp : u.params = s.params) (h' : u.RaisesMarked t mark b) :
    s.RaisesMarked t mark (a ++ b) := by
  obtain ⟨x, hx, hlx⟩ := h
  obtain ⟨y, hy, hly⟩ := h'
  exact ⟨x ++ y, by rw [hy, hx, takeMarked_append], hlx.append (hp ▸ hly)⟩

theorem raisesMarked_of_plain {s t : State} {mark : Option RequestMark} {causes : List NoticeContent}
    (h : t.notices = s.notices.takeMarked mark causes) (hp : ∀ c ∈ causes, c.notLowPool = true) :
    s.RaisesMarked t mark causes := ⟨causes, h, .plain hp⟩

/-! ## The events that end every flow in use (R68, R69) -/

/-- An event that enters each flow in use into `newState` of its state, with `failure` where that is FAILED. -/
structure EndingEvent (g : State → FlowId → State) (rule : Flow → Flow)
    (causes : FlowId → Flow → List NoticeContent) (newState : FlowState → FlowState)
    (failure : Option FailureCause) : Prop where
  endsAt : EndsAt g rule (·.inUse)
  raises : RaisesAt g causes
  inUse : ∀ fl : Flow, fl.inUse = true →
    rule fl = fl.ended (newState fl.state) (if newState fl.state = .failed then failure else none) false
  others : ∀ fl : Flow, fl.inUse = false → rule fl = fl
  recorded : ∀ st, newState st = .failed → failure.isSome = true

theorem partnershipEnd_event (failure : FailureCause) :
    EndingEvent (State.partnershipEndAtFlow failure) (Flow.partnershipEnded failure)
      (Flow.causesAtRestart (FailureCause.flowCause failure) (FailureCause.detail failure))
      (fun old => if old = .opening then .closed else .failed) (some failure) where
  endsAt := partnershipEndAtFlow_endsAt failure
  raises := partnershipEndAtFlow_raises failure
  inUse fl h := by
    unfold Flow.partnershipEnded
    cases hs : fl.state <;> simp_all [Flow.inUse]
  others fl h := by
    unfold Flow.partnershipEnded
    rcases (Flow.inUse_eq_false_iff fl).1 h with hs | hs <;> simp only [hs]
  recorded _ _ := rfl

theorem leave_event :
    EndingEvent State.leaveAtFlow (Flow.left .failed (some .partnerLeft)) Flow.causesAtLeave (fun _ => .failed)
      (some .partnerLeft) where
  endsAt := leaveAtFlow_endsAt
  raises := leaveAtFlow_raises
  inUse fl h := by simp [Flow.left, h]
  others fl h := by simp [Flow.left, h]
  recorded _ _ := rfl

theorem localLeave_event :
    EndingEvent State.localLeaveAtFlow (Flow.left .closed none) Flow.causesAtLocalLeave (fun _ => .closed) none where
  endsAt := localLeaveAtFlow_endsAt
  raises := localLeaveAtFlow_raises
  inUse fl h := by simp [Flow.left, h]
  others fl h := by simp [Flow.left, h]
  recorded _ h := by cases h

section
variable {g : State → FlowId → State} {rule : Flow → Flow} {causes : FlowId → Flow → List NoticeContent}
  {newState : FlowState → FlowState} {failure : Option FailureCause}

/-- R51, R68, R69: the flows and the pool after the event and the discarding of every pending block. -/
theorem EndingEvent.flowsEnded (h : EndingEvent g rule causes newState failure) {s t : State}
    (tf : t.flows = (s.eachFlow g).discardPending.flows) (tp : t.pool = (s.eachFlow g).pool)
    (tl : t.link.lifecycleOrder = []) : s.FlowsEnded t newState failure := by
  have ho := endedOver_all h.endsAt s
  have hflow : ∀ f, t.flow f = { rule (s.flow f) with pendingBlock := none } := fun f => by
    rw [State.flow, tf, ← State.flow, discardPending_flow, ho.flow]
    simp
  have hend : ∀ f, (s.flow f).inUse = true → t.flow f = (s.flow f).ended (newState (s.flow f).state)
      (if newState (s.flow f).state = .failed then failure else none) false := fun f hu => by
    rw [hflow, h.inUse _ hu]
    rfl
  refine
    { state := fun f hu => by rw [hend f hu]; rfl
      atRest := fun f hu => by rw [hend f hu]; simp [Flow.ended, Flow.atRest]
      failureCause := fun f hu => ?_
      discarded := ⟨fun f => by rw [hflow], tl⟩
      others := fun f hu => by rw [hflow, h.others _ hu]
      held := fun f => by simpa [State.held, tp] using ho.held f
      reservation := fun f => by simpa [tp] using ho.reservation f
      conserved := tp ▸ ho.conserved
      bulkHeld := tp ▸ ho.bulkHeld }
  have hst : (t.flow f).state = newState (s.flow f).state := by rw [hend f hu]; rfl
  have hfc : (t.flow f).failureCause =
      (if newState (s.flow f).state = .failed then failure else none).or (s.flow f).failureCause := by
    rw [hend f hu]; rfl
  rw [hfc, hst]
  split
  · next hn =>
    obtain ⟨c, hc⟩ := Option.isSome_iff_exists.1 (h.recorded _ hn)
    rw [hc]
    rfl
  · rfl

/-- R68, R69, R89: a change of the partnership's state, with the event at every flow in use and the discarding of
every pending block. -/
theorem EndingEvent.changed (h : EndingEvent g rule causes newState failure) (s : State) (new : LinkState)
    (cause : LinkCause) :
    ∃ flows pool notices, ((s.changeLinkState new cause).eachFlow g).discardPending = { s with
        part := { s.part with state := new }, flows := flows, pool := pool, notices := notices
        link := { s.link with lifecycleOrder := [] } } ∧
      (∀ t : State, t.flows = flows → t.pool = pool → t.link.lifecycleOrder = [] →
        s.FlowsEnded t newState failure) ∧
      ((∀ f, (s.flow f).inUse = false) → pool = s.pool ∧
        notices = s.notices.takeMarked s.engine.executing [.linkState s.part.state new cause]) ∧
      ∃ all, notices = s.notices.takeMarked s.engine.executing all ∧
        LowPoolAmong s.params.poolLow all (.linkState s.part.state new cause :: s.flowCauses causes) := by
  have ho := endedOver_all h.endsAt (s.changeLinkState new cause)
  obtain ⟨all, hn, hlow⟩ := eachFlow_among h.endsAt h.raises (s.changeLinkState new cause)
  refine ⟨((s.changeLinkState new cause).eachFlow g).discardPending.flows,
    ((s.changeLinkState new cause).eachFlow g).pool, ((s.changeLinkState new cause).eachFlow g).notices,
    ?_, fun t tf tp tl => ?_, fun hu => ?_, .linkState s.part.state new cause :: all, ?_, ?_⟩
  · rw [discardPending_eq, ho.rest]
    simp only [ho.link]
    rfl
  · have he := h.flowsEnded (s := s.changeLinkState new cause) tf tp tl
    exact { he with }
  · exact ho.untouched fun f _ => hu f
  · rw [hn]
    rfl
  · exact (LowPoolAmong.plain (k := s.params.poolLow) (l := [.linkState s.part.state new cause])
      (by simp [NoticeContent.notLowPool])).append hlow

end

end Sys2Proof.Machine

namespace Sys2Proof.Machine

/-! ## The events of the partnership as a whole (R72, R77, R80, R81, R83) -/

theorem confirms_iff (p : Partnership) (seen : Option Epoch) : p.confirms seen = true ↔ p.confirmedBy seen := by
  unfold Partnership.confirms Partnership.confirmedBy
  cases seen with
  | none => simp
  | some epoch => exact ⟨fun h => ⟨epoch, rfl, (beq_iff_eq.1 (Bool.and_eq_true_iff.1 h).2).symm⟩,
      fun ⟨own, ho, h⟩ => by simp [h, Option.some.inj ho]⟩

/-- R72: the epoch drawn is not the one that it replaces. -/
theorem drawEpoch_eq (s : State) : ∃ epoch, s.part.ownEpoch ≠ some epoch ∧ s.drawEpoch = { s with
    part := { s.part with ownEpoch := some epoch }, epochDraws := s.epochDraws + 1 } := by
  refine ⟨_, ?_, rfl⟩
  split
  · next h =>
    rw [h]
    intro hc
    have := Option.some.inj hc
    bv_omega
  · next h => exact h

/-- R76: a HELLO of the recorded unit in PARTNERED or LOST, by the epoch that it carries. -/
theorem execHelloReceived_known {s : State} {epoch : Epoch} {unit : Address} {seen : Option Epoch}
    {rest : List LinkBlock} (hl : s.link.toPartnership = ⟨epoch, .hello unit seen⟩ :: rest) (hu : unit ≠ s.unitId)
    (hp : s.part.partnerUnit = some unit) :
    (s.part.state = .lost → exec .helloReceived s = .next
      (State.helloInLost { s with link := { s.link with toPartnership := rest } } epoch unit seen).finish) ∧
    ((s.part.state = .partnered ∨ s.part.state = .lost) → s.part.partnerEpoch ≠ some epoch →
      exec .helloReceived s = .next (State.partnerRestart
        { s with link := { s.link with toPartnership := rest } } epoch unit seen).finish) := by
  have hx : exec .helloReceived s = .next (State.helloAtPartnership
      { s with link := { s.link with toPartnership := rest } } epoch unit seen).finish := by
    simp only [exec, execHelloReceived, hl]
    rfl
  have hno : ¬ (unit = s.unitId ∨ s.part.partnerUnit ≠ some unit) := by tauto
  refine ⟨fun hs => ?_, fun hs he => ?_⟩
  · rw [hx, State.helloAtPartnership]
    simp only [hs, if_neg hno]
  · rw [hx, State.helloAtPartnership]
    rcases hs with hs | hs
    · simp only [hs, if_neg hno, State.helloInPartnered, if_neg he]
    · simp only [hs, if_neg hno, State.helloInLost, if_neg he]

/-- R51, R68, R80: a partner restart up to the HELLO's own handling in JOINING. -/
theorem partnerRestart_eq (s : State) (epoch : Epoch) (unit : Address) (seen : Option Epoch) :
    ∃ flows pool notices, s.partnerRestart epoch unit seen = State.helloInJoining { s with
        part := { s.part.restarted epoch s.params.joinLimit with state := .joining }
        flows := flows, pool := pool, notices := notices, link := { s.link with lifecycleOrder := [] } }
          epoch unit seen ∧
      (∀ t : State, t.flows = flows → t.pool = pool → t.link.lifecycleOrder = [] →
        s.FlowsEnded t (fun old => if old = .opening then .closed else .failed) (some .partnerRestart)) ∧
      ((∀ f, (s.flow f).inUse = false) → pool = s.pool ∧ notices =
        s.notices.takeMarked s.engine.executing [.linkState s.part.state .joining .partnerRestart]) ∧
      ∃ all, notices = s.notices.takeMarked s.engine.executing all ∧
        LowPoolAmong s.params.poolLow all (.linkState s.part.state .joining .partnerRestart ::
          s.flowCauses (Flow.causesAtRestart .partnerRestart .partnerRestart)) := by
  obtain ⟨flows, pool, notices, e, h⟩ :=
    (partnershipEnd_event .partnerRestart).changed s .joining .partnerRestart
  refine ⟨flows, pool, notices, ?_, h⟩
  unfold State.partnerRestart
  simp only [e]
  rfl

/-- R73: what the completion of a deferred join raises. -/
def joinCompletion (join : Option Tag) (outcome : Completion) : List NoticeContent :=
  match join with
  | none => []
  | some tag => [.completion tag 0x30 outcome none]

theorem joinCompletion_plain (join : Option Tag) (outcome : Completion) :
    ∀ c ∈ joinCompletion join outcome, c.notLowPool = true := by
  cases join <;> simp [joinCompletion, NoticeContent.notLowPool]

/-- R77: the handshake, with the completion of the deferred join. -/
theorem handshake_takes {s : State} (he : s.engine.executing = none) : s.handshake = { s with
    part := { s.part with
      state := .partnered, joinTimer := .stopped, helloTimer := .stopped, repeatMark := false
      silenceTimer := .running s.params.silenceLimit, keepaliveTimer := .running s.params.keepaliveInterval
      deferredJoin := none }
    notices := s.notices.takeAll (.linkState s.part.state .partnered .handshake ::
      joinCompletion s.part.deferredJoin .done) } := by
  unfold State.handshake State.completeJoin
  simp only [changeLinkState_eq, modifyPart_part]
  cases hd : s.part.deferredJoin with
  | none => simp [State.modifyPart, he, Notices.takeAll, hd, joinCompletion]
  | some tag => simp [State.modifyPart, State.raiseCause, State.modifyNotices, he, Notices.takeAll, hd, codeLinkJoin,
      joinCompletion]

end Sys2Proof.Machine

section
open Sys2Proof Sys2Proof.Machine

/-- Settles O43: the loss at every flow, which ends the OPENING ones. -/
theorem silenceSuspendsFlows : Obligations.SilenceSuspendsFlows := by
  intro s he hs ht
  let u : State := (s.changeLinkState .lost .silence).modifyPart fun p => { p with
    silenceTimer := .stopped, keepaliveTimer := .stopped, keepalivePending := false
    holdTimer := .running (s.params.holdLimit * 1000), helloPending := true, helloTimer := .running 200 }
  have hu : u.notices = s.notices.takeAll [.linkState .partnered .lost .silence] := by
    simp [u, changeLinkState_eq, he, hs, Notices.takeAll]
  have huf : ∀ f, u.flow f = s.flow f := fun _ => rfl
  have huh : ∀ f, u.held f = s.held f := fun _ => rfl
  have hup : u.pool = s.pool := rfl
  have ho := endedOver_all lossAtFlow_endsAt u
  obtain ⟨all, hn, hlow⟩ := eachFlow_among lossAtFlow_endsAt lossAtFlow_raises u
  have hflow : ∀ f, (u.eachFlow State.lossAtFlow).flow f = (s.flow f).lost :=
    eachFlow_flow_of_endsAt lossAtFlow_endsAt u
  refine ⟨u.eachFlow State.lossAtFlow, ?_, ?_, fun f hf => ?_, fun f hf => ?_, fun f hf => ?_, fun f => ?_, fun f => ?_,
    ho.conserved, ho.bulkHeld, ?_, fun hno => ?_, ?_, ?_⟩
  · rw [exec, execSilenceTimerExpiry, if_pos ⟨hs, by simp [ht]⟩]
    rfl
  · rw [ho.rest]
    rfl
  · rw [hflow, Flow.lost]
    rcases hf with h | h | h <;> simp only [h]
  · rw [hflow, Flow.lost]
    rcases (Flow.inUse_eq_false_iff _).1 hf with h | h <;> simp only [h]
  · rw [hflow, Flow.lost]
    simp only [hf]
    exact ⟨rfl, by simp [Flow.ended, Flow.atRest], rfl, rfl⟩
  · simpa [huf, hup] using ho.reservation f
  · simpa [huf, huh] using ho.held f
  · have hkeep : s.link.lifecycleOrder.filter
        (fun k => !(decide (k ∈ List.finRange 64) && (u.flow k).state == .opening)) =
        s.link.lifecycleOrder.filter fun f => (s.flow f).state ≠ .opening :=
      List.filter_congr fun f _ => by
        simp only [List.mem_finRange, decide_true, Bool.true_and, huf, ne_eq, decide_not]
        rfl
    exact ho.link.trans (congrArg (fun order => { s.link with lifecycleOrder := order }) hkeep)
  · obtain ⟨hp, hnot⟩ := ho.untouched fun f _ => by simpa [huf] using hno f
    exact ⟨hp, hnot.trans hu⟩
  · have first : s.RaisesMarked u none [.linkState .partnered .lost .silence] :=
      raisesMarked_of_plain hu (by simp [NoticeContent.notLowPool])
    have rest : u.RaisesMarked (u.eachFlow State.lossAtFlow) none (u.flowCauses Flow.causesAtLoss) :=
      ⟨all, he ▸ hn, hlow⟩
    exact raisesAmong_of_marked (first.trans rfl rest)
  · have hrest : u.eachFlow State.lossAtFlow = { s with
        part := u.part, flows := (u.eachFlow State.lossAtFlow).flows, pool := (u.eachFlow State.lossAtFlow).pool
        link := (u.eachFlow State.lossAtFlow).link, notices := (u.eachFlow State.lossAtFlow).notices } := ho.rest
    rw [hrest]
    constructor <;> simp

end

namespace Sys2Proof.Machine

/-- R77: a HELLO in JOINING that does not confirm this bridge. -/
theorem helloInJoining_waits {s : State} {seen : Option Epoch} (h : ¬ s.part.confirmedBy seen) (epoch : Epoch)
    (unit : Address) : s.helloInJoining epoch unit seen = { s with
      part := { s.part with partnerUnit := some unit, partnerEpoch := some epoch, helloPending := true } } := by
  unfold State.helloInJoining
  simp only
  exact if_neg fun h' => h ((confirms_iff _ _).1 h')

/-- R77: a HELLO in JOINING that confirms this bridge. -/
theorem helloInJoining_confirms {s : State} {seen : Option Epoch} (h : s.part.confirmedBy seen) (epoch : Epoch)
    (unit : Address) : s.helloInJoining epoch unit seen = State.handshake { s with
      part := { s.part with partnerUnit := some unit, partnerEpoch := some epoch, helloPending := true } } := by
  unfold State.helloInJoining
  simp only
  exact if_pos ((confirms_iff _ _).2 h)

end Sys2Proof.Machine

section
open Sys2Proof Sys2Proof.Machine

/-- Settles O44: the hold timer's end and the partner's restart end the flows alike; a confirming HELLO goes on with
the handshake. -/
theorem partnershipRestarts : Obligations.PartnershipRestarts := by
  refine ⟨fun s he hs ht => ?_, fun s epoch unit seen rest he hl hs hu hp hne hno => ?_,
    fun s epoch unit seen rest he hl hs hu hp hne hc => ?_⟩
  · obtain ⟨flows, pool, notices, e, hended, hquiet, all, hn, hlow⟩ :=
      (partnershipEnd_event .partnerLost).changed s .joining .holdExpired
    obtain ⟨epoch, hepoch, hdraw⟩ := drawEpoch_eq ((s.changeLinkState .joining .holdExpired).eachFlow
      (State.partnershipEndAtFlow .partnerLost)).discardPending
    rw [e] at hepoch hdraw
    rw [he] at hquiet hn
    rw [hs] at hquiet hlow
    have hx : s.holdExpired = { s with
        part := { s.part with
          state := .joining, ownEpoch := some epoch, holdTimer := .stopped
          joinTimer := .running (s.params.joinLimit * 1000), helloPending := true }
        flows := flows, pool := pool, notices := notices, epochDraws := s.epochDraws + 1
        link := { s.link with lifecycleOrder := [] } } := by
      unfold State.holdExpired
      simp only [e, hdraw]
      rfl
    refine ⟨s.holdExpired, epoch, ?_, hepoch, by rw [hx], hended _ (by rw [hx]) (by rw [hx]) (by rw [hx]), by rw [hx],
      ?_, ?_, ?_⟩
    · rw [exec, execHoldTimerExpiry, if_pos ⟨hs, by simp [ht]⟩]
    · rw [hx]; exact hquiet
    · exact raisesAmong_of_marked ⟨all, by rw [hx]; exact hn, hlow⟩
    · rw [hx]
      constructor <;> simp
  · obtain ⟨flows, pool, notices, e, hended, hquiet, all, hn, hlow⟩ := partnerRestart_eq
      { s with link := { s.link with toPartnership := rest } } epoch unit seen
    simp only [he] at hquiet hn
    replace e := e.trans (helloInJoining_waits (by exact hno) _ _)
    refine ⟨_, (execHelloReceived_known hl hu hp).2 hs hne, ?_, ?_, ?_, ?_, ?_, ?_⟩
    · rw [e]
      simp [Partnership.restarted, startIfStopped_eq, hp]
    · exact { hended _ (by rw [e]) (by rw [e]) (by rw [e]) with }
    · rw [e]
    · rw [e]; exact hquiet
    · exact raisesAmong_of_marked ⟨all, by rw [e]; exact hn, hlow⟩
    · rw [e]
      constructor <;> simp
  · obtain ⟨flows, pool, notices, e, hended, hquiet, all, hn, hlow⟩ := partnerRestart_eq
      { s with link := { s.link with toPartnership := rest } } epoch unit seen
    simp only [he] at hquiet hn
    replace e := (e.trans (helloInJoining_confirms (by exact hc) _ _)).trans (handshake_takes (by exact he))
    refine ⟨_, (execHelloReceived_known hl hu hp).2 hs hne, ?_, ?_, ?_, ?_, ?_⟩
    · rw [e]
      simp [Partnership.restarted, hp]
    · exact { hended _ (by rw [e]) (by rw [e]) (by rw [e]) with }
    · rw [e]
    · intro joined
      refine ⟨fun hq => ?_, ?_⟩
      · obtain ⟨hpool, hnot⟩ := hquiet hq
        rw [e]
        exact ⟨hpool, by rw [hnot]; rfl⟩
      · have first : s.RaisesMarked { s with notices := notices } none (.linkState s.part.state .joining
            .partnerRestart :: s.flowCauses (Flow.causesAtRestart .partnerRestart .partnerRestart)) :=
          ⟨all, hn, hlow⟩
        exact raisesAmong_of_marked (first.trans rfl (raisesMarked_of_plain (by rw [e]; rfl)
          (List.forall_mem_cons.2 ⟨rfl, joinCompletion_plain s.part.deferredJoin .done⟩)))
    · rw [e]
      constructor <;> simp

end

namespace Sys2Proof.Machine

/-! ## The partnership ends in SILENT (R69, R84, R86, R87, R152) -/

/-- R152: with no RESTART response among them, the link replies that no grant has taken are discarded. -/
theorem discardReplies_plain {s : State} (h : ∀ item ∈ s.engine.linkReply, item.restartResponse = false) :
    s.discardReplies = { s with engine := { s.engine with
      linkReply := s.engine.linkReply.take s.link.transmitter.repliesTaken } } := by
  have hno : (s.engine.linkReply.drop s.link.transmitter.repliesTaken).any (·.restartResponse) = false :=
    List.any_eq_false.2 fun item hi => by simp [h item (List.mem_of_mem_drop hi)]
  simp only [State.discardReplies, hno]
  rfl

/-- R73: the completion of a deferred join, under the mark of a request in execution or none. -/
theorem completeJoin_takes (s : State) (outcome : Completion) : s.completeJoin outcome = { s with
    part := { s.part with deferredJoin := none }
    notices := s.notices.takeMarked s.engine.executing (joinCompletion s.part.deferredJoin outcome) } := by
  unfold State.completeJoin
  cases hd : s.part.deferredJoin with
  | none => simp [Notices.takeMarked, joinCompletion, ← hd]
  | some tag => rfl

/-- R87: what an accepted LEAVE does. -/
theorem partnerLeft_eq {s : State} (hr : ∀ item ∈ s.engine.linkReply, item.restartResponse = false) :
    ∃ flows pool notices, s.partnerLeft = { s with
        part := { s.part.withdrawn with state := .silent }
        flows := flows, pool := pool, notices := notices, link := { s.link with lifecycleOrder := [] }
        engine := { s.engine with
          linkReply := s.engine.linkReply.take s.link.transmitter.repliesTaken } } ∧
      (∀ t : State, t.flows = flows → t.pool = pool → t.link.lifecycleOrder = [] →
        s.FlowsEnded t (fun _ => .failed) (some .partnerLeft)) ∧
      ((∀ f, (s.flow f).inUse = false) → pool = s.pool ∧ notices =
        s.notices.takeMarked s.engine.executing [.linkState s.part.state .silent .partnerLeft]) ∧
      ∃ all, notices = s.notices.takeMarked s.engine.executing all ∧ LowPoolAmong s.params.poolLow all
        (.linkState s.part.state .silent .partnerLeft :: s.flowCauses Flow.causesAtLeave) := by
  obtain ⟨flows, pool, notices, e, h⟩ := leave_event.changed s .silent .partnerLeft
  refine ⟨flows, pool, notices, ?_, h⟩
  unfold State.partnerLeft
  simp only [e]
  exact discardReplies_plain (by exact hr)

/-- R84: what a join timeout does. -/
theorem joinExpired_eq {s : State} (hr : ∀ item ∈ s.engine.linkReply, item.restartResponse = false)
    (he : s.engine.executing = none) (hs : s.part.state = .joining) : s.joinExpired = { s with
      part := { s.part.withdrawn with state := .silent, deferredJoin := none }
      engine := { s.engine with linkReply := s.engine.linkReply.take s.link.transmitter.repliesTaken }
      notices := s.notices.takeAll (.linkState .joining .silent .joinTimeout ::
        joinCompletion s.part.deferredJoin .timeout) } := by
  unfold State.joinExpired
  simp only [completeJoin_takes]
  rw [discardReplies_plain (by exact hr)]
  simp [changeLinkState_eq, State.modifyPart, Partnership.withdrawn, he, hs, Notices.takeAll, Notices.takeMarked]

end Sys2Proof.Machine

section
open Sys2Proof Sys2Proof.Machine

/-- Settles O45: a LEAVE by the test of its epoch, and the join timeout. -/
theorem partnershipEnds : Obligations.PartnershipEnds := by
  intro s he hr withdrawn taken engine
  refine ⟨fun epoch rest hl => ⟨fun hs hp => ?_, fun hno => ?_⟩, fun hs ht => ?_⟩
  · obtain ⟨flows, pool, notices, e, hended, hquiet, all, hn, hlow⟩ :=
      partnerLeft_eq (s := { s with link := { s.link with toPartnership := rest } }) hr
    simp only [he] at hquiet hn
    have hx : exec .leaveReceived s =
        .next (State.partnerLeft { s with link := { s.link with toPartnership := rest } }).finish := by
      simp only [exec, execLeaveReceived, hl]
      exact congrArg (fun u => Host.Outcome.next (State.finish u)) (if_pos ⟨hs, hp⟩)
    refine ⟨_, hx, by rw [e]; rfl, ?_, by rw [e], by rw [e]; rfl, ?_, ?_, ?_⟩
    · exact { hended _ (by rw [e]) (by rw [e]) (by rw [e]) with }
    · rw [e]; exact hquiet
    · exact raisesAmong_of_marked ⟨all, by rw [e]; exact hn, hlow⟩
    · rw [e]
      constructor <;> simp
  · simp only [exec, execLeaveReceived, hl]
    refine congrArg (fun u => Host.Outcome.next (State.finish u)) (if_neg ?_)
    rintro ⟨hs, hp⟩
    rcases hno with h | h | h
    · rw [modifyLink_part, h] at hs; simp at hs
    · rw [modifyLink_part, h] at hs; simp at hs
    · exact h hp
  · rw [exec, execJoinTimerExpiry, if_pos ⟨hs, by simp [ht]⟩, joinExpired_eq hr he hs]
    rfl

end

namespace Sys2Proof.Machine

/-! ## The regain at every flow (R58, R67, R79, R135) -/

/-- R92: the pool after the accounts of some flows have been emptied. -/
structure EmptiedOver (p q : Pool) (collected : FlowId → Nat) (ends : FlowId → Bool) (l : List FlowId) : Prop where
  held : ∀ k, readAt q.held k =
    if k ∈ l ∧ ends k = true then readAt p.held k - collected k else readAt p.held k
  reservation : ∀ k, readAt q.reservation k = if k ∈ l ∧ ends k = true then 0 else readAt p.reservation k
  conserved : q.heldByFlows + q.free = p.heldByFlows + p.free
  bulkHeld : q.bulkHeld = p.bulkHeld

theorem EmptiedOver.nil (p : Pool) (collected : FlowId → Nat) (ends : FlowId → Bool) :
    EmptiedOver p p collected ends [] := ⟨by simp, by simp, rfl, rfl⟩

/-- A flow that does not end leaves the pool as it is. -/
theorem EmptiedOver.keep {p q : Pool} {collected : FlowId → Nat} {ends : FlowId → Bool} {l : List FlowId}
    (h : EmptiedOver p q collected ends l) {f : FlowId} (he : ends f = false) :
    EmptiedOver p q collected ends (l ++ [f]) := by
  have hm : ∀ k, k ∈ l ∧ ends k = true ↔ k ∈ l ++ [f] ∧ ends k = true := fun k => by
    by_cases hk : k = f <;> simp [hk, he]
  exact { h with
    held := fun k => (h.held k).trans (if_congr (hm k) rfl rfl)
    reservation := fun k => (h.reservation k).trans (if_congr (hm k) rfl rfl) }

/-- A flow that ends empties its account. -/
theorem EmptiedOver.empty {p q : Pool} {collected : FlowId → Nat} {ends : FlowId → Bool} {l : List FlowId}
    (h : EmptiedOver p q collected ends l) {f : FlowId} (he : ends f = true) (hf : f ∉ l) (armed : Bool) :
    EmptiedOver p { q.returnFlow f (collected f) with reservation := writeAt q.reservation f 0, lowArmed := armed }
      collected ends (l ++ [f]) := by
  have hheld : readAt q.held f = readAt p.held f := by rw [h.held]; simp [hf]
  refine ⟨fun k => ?_, fun k => ?_, ?_, h.bulkHeld⟩
  · by_cases hk : k = f
    · subst hk
      simp only [Pool.returnFlow, readAt_writeAt_same, hheld, he, List.mem_append, List.mem_singleton, or_true,
        and_true, if_true]
      omega
    · simp only [Pool.returnFlow]
      rw [readAt_writeAt_ne _ _ (Ne.symm hk), h.held]
      simp [hk]
  · by_cases hk : k = f
    · subst hk; simp [he]
    · simp only
      rw [readAt_writeAt_ne _ _ (Ne.symm hk), h.reservation]
      simp [hk]
  · have hsum := heldByFlows_writeAt q { q.returnFlow f (collected f) with
      reservation := writeAt q.reservation f 0, lowArmed := armed } f _ rfl
    have := h.conserved
    simp only [Pool.returnFlow] at hsum ⊢
    omega

/-- R135: the lifecycle order when the flows of a list that owe a block have joined its tail. -/
def LinkPort.queuedOver (l : LinkPort) (owes : FlowId → Bool) (done : List FlowId) : LinkPort :=
  { l with lifecycleOrder :=
      l.lifecycleOrder.filter (fun k => !(decide (k ∈ done) && owes k)) ++ done.filter owes }

theorem queuedOver_owing {l : LinkPort} {owes : FlowId → Bool} {done : List FlowId} {f : FlowId} (hf : f ∉ done)
    (ho : owes f = true) : (l.queuedOver owes done).queued f = l.queuedOver owes (done ++ [f]) := by
  have hdone : (done.filter owes).filter (· ≠ f) = done.filter owes :=
    List.filter_eq_self.2 fun k hk => decide_eq_true fun e => hf (e ▸ List.mem_of_mem_filter hk)
  have hrest : (l.lifecycleOrder.filter fun k => !(decide (k ∈ done) && owes k)).filter (· ≠ f) =
      l.lifecycleOrder.filter fun k => !(decide (k ∈ done ++ [f]) && owes k) := by
    rw [List.filter_filter]
    refine List.filter_congr fun k _ => ?_
    by_cases hk : k = f <;> simp [hk, ho]
  simp only [LinkPort.queued, LinkPort.queuedOver, List.filter_append, hdone, hrest]
  simp [ho]

theorem queuedOver_free {l : LinkPort} {owes : FlowId → Bool} {done : List FlowId} {f : FlowId}
    (ho : owes f = false) : l.queuedOver owes done = l.queuedOver owes (done ++ [f]) := by
  have hrest : (l.lifecycleOrder.filter fun k => !(decide (k ∈ done) && owes k)) =
      l.lifecycleOrder.filter fun k => !(decide (k ∈ done ++ [f]) && owes k) := by
    refine List.filter_congr fun k _ => ?_
    by_cases hk : k = f <;> simp [hk, ho]
  simp only [LinkPort.queuedOver, List.filter_append, hrest]
  simp [ho]

/-- What has happened when the regain has reached some flows. -/
structure RegainedOver (s t : State) (l : List FlowId) : Prop where
  flow : ∀ k, t.flow k = if k ∈ l then Flow.regained (s.profile k).rtoBase (s.flow k) else s.flow k
  pool : EmptiedOver s.pool t.pool (fun k => (s.flow k).collectedBuffers) (fun k => (s.flow k).endsAtRegain) l
  link : t.link = s.link.queuedOver (fun k => (s.flow k).owesAtRegain) l
  notices : ∃ all, t.notices = s.notices.takeAll all ∧
    LowPoolAmong s.params.poolLow all (l.flatMap fun f => (s.flow f).causesAtRegain f)
  untouched : (∀ k ∈ l, (s.flow k).endsAtRegain = false) → t.pool = s.pool ∧
    t.notices = s.notices.takeAll (l.flatMap fun f => (s.flow f).causesAtRegain f)
  rest : t = { s with flows := t.flows, pool := t.pool, link := t.link, notices := t.notices }

theorem RegainedOver.step {s t : State} {done : List FlowId} (h : RegainedOver s t done)
    (he : s.engine.executing = none) {f : FlowId} (hf : f ∉ done) :
    RegainedOver s (t.regainAtFlow f) (done ++ [f]) := by
  have hfl : t.flow f = s.flow f := by rw [h.flow]; simp [hf]
  have hprof : t.profile f = s.profile f := by rw [h.rest]; rfl
  have hparams : t.params = s.params := by rw [h.rest]
  have het : t.engine.executing = none := by rw [h.rest]; exact he
  obtain ⟨armed, all, e, hlow, hquiet⟩ := regainAtFlow_eq t f het
  rw [hfl, hparams] at hlow
  rw [hfl] at hquiet
  rw [hfl, hprof] at e
  obtain ⟨before, hb, hbl⟩ := h.notices
  rw [e]
  refine ⟨fun k => ?_, ?_, ?_, ⟨before ++ all, ?_, ?_⟩, fun hno => ?_, ?_⟩
  · rw [State.flow, readAt_writeAt]
    by_cases hk : f = k
    · subst hk; simp
    · rw [if_neg hk, ← State.flow, h.flow]
      simp [Ne.symm hk]
  · cases hends : (s.flow f).endsAtRegain with
    | true => exact h.pool.empty hends hf armed
    | false => exact h.pool.keep hends
  · cases howes : (s.flow f).owesAtRegain with
    | true => exact (congrArg (LinkPort.queued · f) h.link).trans (queuedOver_owing hf howes)
    | false => exact h.link.trans (queuedOver_free howes)
  · rw [hb, Notices.takeAll_append]
  · simpa using hbl.append hlow
  · have hends := hno f (by simp)
    obtain ⟨hp, hn⟩ := h.untouched fun k hk => hno k (by simp [hk])
    refine ⟨by rw [hends]; exact hp, ?_⟩
    rw [hn, hquiet hends, Notices.takeAll_append]
    simp
  · rw [h.rest]

theorem regainedOver_all {s : State} (he : s.engine.executing = none) :
    RegainedOver s (s.eachFlow State.regainAtFlow) (List.finRange 64) := by
  refine eachFlow_ind (P := fun l t => RegainedOver s t l) (fun done f t hf ht => ht.step he hf) ?_
  exact ⟨by simp, .nil _ _ _, by simp [LinkPort.queuedOver], ⟨[], rfl, by simp⟩, fun _ => ⟨rfl, rfl⟩, rfl⟩

end Sys2Proof.Machine

namespace Sys2Proof.Machine

/-! ## One flow at the regain (R58, R67) -/

/-- R67: an entry in flight becomes due. -/
theorem lose_eq (e : WindowEntry) : e.lose = { e with condition := match e.condition with
    | .outstanding frame => .pendingRetx frame
    | .skipped _ => .skipped .due
    | .sacked frame => .sacked frame
    | .pendingRetx frame => .pendingRetx frame } := by
  obtain ⟨q, c, n⟩ := e
  cases c with
  | outstanding frame | sacked frame | pendingRetx frame => rfl
  | skipped advance => cases advance <;> rfl

theorem resumed_eq (fl : Flow) (base : Nat) : fl.resumed base = { fl with
    suspended := false
    window := fl.window.map fun e => { e with condition := match e.condition with
      | .outstanding frame => .pendingRetx frame
      | .skipped _ => .skipped .due
      | .sacked frame => .sacked frame
      | .pendingRetx frame => .pendingRetx frame }
    rto := base, retxTimer := .stopped, statusPending := true } := by
  rw [Flow.resumed, List.map_congr_left fun e _ => lose_eq e]

theorem drainsAtRegain_iff (fl : Flow) : fl.drainsAtRegain = true ↔ fl.suspended = true ∧ fl.state = .draining ∧
    fl.sendQueue = [] ∧ fl.window = [] ∧ fl.pendingBlock = none := by
  simp [Flow.drainsAtRegain, and_assoc]

theorem regained_unsuspended {fl : Flow} (h : fl.suspended = false) (base : Nat) : fl.regained base = fl := by
  simp [Flow.regained, h]

/-- R67: a suspended flow that owes nothing new resumes. -/
theorem regained_resumes {fl : Flow} (h : fl.suspended = true) (hc : ¬ (fl.state = .closing ∧ fl.pendingBlock = none))
    (hd : ¬ fl.drainsAtRegain = true) (base : Nat) : fl.regained base = fl.resumed base := by
  rw [Flow.regained, if_pos h]
  simp only [if_neg hc, if_neg hd]

theorem regained_closing {fl : Flow} (h : fl.suspended = true) (hs : fl.state = .closing)
    (hb : fl.pendingBlock = none) (base : Nat) :
    fl.regained base = { fl.resumed base with pendingBlock := some .close } := by
  rw [Flow.regained, if_pos h]
  simp only [if_pos (And.intro hs hb)]

/-- R58, R67: the end of a drain of origin LOCAL. -/
theorem regained_drained_local {fl : Flow} (h : fl.drainsAtRegain = true) (ho : fl.drainOrigin = some .localEnd)
    (base : Nat) : fl.regained base = { fl.resumed base with
      state := .closing, drainOrigin := none, attempts := 0, pendingBlock := some .close } := by
  obtain ⟨hsus, hst, -⟩ := (drainsAtRegain_iff fl).1 h
  rw [Flow.regained, if_pos hsus]
  simp only [hst, h, ho, if_true]
  rfl

/-- R58, R67: the end of a drain of origin PEER. -/
theorem regained_drained_peer {fl : Flow} (h : fl.drainsAtRegain = true) (ho : fl.drainOrigin = some .peerEnd)
    (base : Nat) : fl.regained base =
      ({ fl.resumed base with pendingBlock := some .closeAck } : Flow).ended .closed none true := by
  obtain ⟨hsus, hst, -⟩ := (drainsAtRegain_iff fl).1 h
  rw [Flow.regained, if_pos hsus]
  simp only [hst, h, ho, if_true]
  rfl

end Sys2Proof.Machine

section
open Sys2Proof Sys2Proof.Machine

/-- Settles O42: the regain flow by flow, from the state that the change to PARTNERED leaves. -/
theorem partnershipRegained : Obligations.PartnershipRegained := by
  intro s epoch unit seen rest he hl hs hu hp hpe hc
  let u : State := { s with
    link := { s.link with toPartnership := rest }
    part := { s.part with
      state := .partnered, holdTimer := .stopped, helloTimer := .stopped
      silenceTimer := .running s.params.silenceLimit, keepaliveTimer := .running s.params.keepaliveInterval
      repeatMark := false, helloPending := true }
    notices := s.notices.takeAll [.linkState .lost .partnered .regained] }
  have hx : exec .helloReceived s = .next (u.eachFlow State.regainAtFlow).finish := by
    rw [(execHelloReceived_known hl hu hp).1 hs, State.helloInLost, if_pos (by exact hpe),
      if_pos ((confirms_iff _ _).2 hc), State.regain]
    simp only [changeLinkState_eq, State.modifyPart, hs, he]
    rfl
  have huf : ∀ f, u.flow f = s.flow f := fun _ => rfl
  have hup : u.pool = s.pool := rfl
  have hr : RegainedOver u (u.eachFlow State.regainAtFlow) (List.finRange 64) := regainedOver_all he
  have hflow : ∀ f, (u.eachFlow State.regainAtFlow).flow f = Flow.regained (s.profile f).rtoBase (s.flow f) :=
    fun f => by
      rw [hr.flow, if_pos (List.mem_finRange f)]
      rfl
  obtain ⟨all, hn, hlow⟩ := hr.notices
  refine ⟨_, hx, by rw [hr.rest], fun f hf => (hflow f).trans (regained_unsuspended hf _), fun f hf => ?_,
    fun f hf => ?_, ?_, fun f => ?_, fun f => ?_, hr.pool.conserved, hr.pool.bulkHeld, ⟨?_, fun hno => ?_⟩, ?_⟩
  · intro fl resumed
    have hres : fl.resumed (s.profile f).rtoBase = resumed := resumed_eq fl _
    rw [hflow, ← hres]
    refine ⟨fun h => regained_resumes hf (fun ⟨h1, h2⟩ => ?_) (fun hd => ?_) _,
      fun h1 h2 => regained_closing hf h1 h2 _, fun h1 h2 h3 h4 h5 =>
        regained_drained_local ((drainsAtRegain_iff _).2 ⟨hf, h1, h3, h4, h5⟩) h2 _⟩
    · rcases h with h | ⟨-, hb⟩ | ⟨h, -⟩
      · exact absurd (h.symm.trans h1) (by simp)
      · rw [h2] at hb; cases hb
      · exact absurd (h.symm.trans h1) (by simp)
    · obtain ⟨-, h1, h2, h3, h4⟩ := (drainsAtRegain_iff _).1 hd
      rcases h with h | ⟨h, -⟩ | ⟨-, h | h | hb⟩
      · exact absurd (h.symm.trans h1) (by simp)
      · exact absurd (h.symm.trans h1) (by simp)
      · exact h h2
      · exact h h3
      · rw [h4] at hb; cases hb
  · simp only [Flow.endsAtRegain, Bool.and_eq_true, beq_iff_eq] at hf
    rw [hflow, regained_drained_peer hf.1 hf.2]
    exact ⟨rfl, by simp [Flow.ended, Flow.atRest, LifecycleBlock.owedAtRest], rfl, rfl, rfl, rfl, rfl, rfl⟩
  · refine hr.link.trans ?_
    simp only [LinkPort.queuedOver, List.mem_finRange, decide_true, Bool.true_and]
    rfl
  · simpa [huf, hup, State.held] using hr.pool.held f
  · simpa [huf, hup] using hr.pool.reservation f
  · have first : s.RaisesMarked u none [.linkState .lost .partnered .regained] :=
      raisesMarked_of_plain rfl (by simp [NoticeContent.notLowPool])
    exact raisesAmong_of_marked (first.trans rfl ⟨all, hn, hlow⟩)
  · obtain ⟨hpool, hn⟩ := hr.untouched fun f _ => hno f
    exact ⟨hpool, hn⟩
  · have hrest : u.eachFlow State.regainAtFlow = { s with
        part := u.part, flows := (u.eachFlow State.regainAtFlow).flows, pool := (u.eachFlow State.regainAtFlow).pool
        link := (u.eachFlow State.regainAtFlow).link
        notices := (u.eachFlow State.regainAtFlow).notices } := hr.rest
    rw [hrest]
    constructor <;> simp

end

namespace Sys2Proof.Machine

/-! ## Operations under the mark of a request in execution (R51, R100, R173) -/

/-- R100: one low-pool test, whatever request is in execution. -/
theorem lowPoolTest_marked (s : State) (p : Pool) (ha : p.lowArmed = s.pool.lowArmed) :
    ∃ armed low, ({ s with pool := p } : State).lowPoolTest s.pool.sharedFree = { s with
        pool := { p with lowArmed := armed }, notices := s.notices.takeMarked s.engine.executing low } ∧
      s.LowPoolTested { p with lowArmed := armed } (s.notices.takeAll low) := by
  have hs : ∀ b, ({ p with lowArmed := b } : Pool).sharedFree = p.sharedFree := fun _ => rfl
  unfold State.lowPoolTest
  by_cases hsame : p.sharedFree = s.pool.sharedFree
  · refine ⟨p.lowArmed, [], by simp [hsame, Notices.takeMarked], ⟨fun _ => ⟨ha, rfl⟩, ?_, ?_, ?_⟩⟩
    all_goals exact fun h => absurd ((hs _).trans hsame) h
  · have hno : ∀ b, ({ p with lowArmed := b } : Pool).sharedFree ≠ s.pool.sharedFree := fun _ => hsame
    cases harmed : s.pool.lowArmed with
    | true =>
      have off : ¬ s.pool.lowArmed = false := by simp [harmed]
      by_cases hlow : p.sharedFree < s.params.poolLow
      · exact ⟨false, [.poolLow p.sharedFree], by simp [hsame, ha, harmed, hlow, Notices.takeMarked, State.raiseCause,
          State.modifyNotices, State.modifyPool], fun h => absurd h (hno _), fun _ _ _ => ⟨rfl, rfl⟩,
          fun _ _ h => absurd hlow (not_lt.2 h), fun _ h => absurd h off⟩
      · refine ⟨p.lowArmed, [], ?_, fun h => absurd h (hno _), fun _ _ h => absurd h hlow,
          fun _ _ _ => ⟨ha.trans harmed, rfl⟩, fun _ h => absurd h off⟩
        simp only
        rw [if_neg hsame, if_pos (ha.trans harmed), if_neg hlow]
        rfl
    | false =>
      have off : ¬ s.pool.lowArmed = true := by simp [harmed]
      by_cases hlow : s.params.poolLow ≤ p.sharedFree
      · exact ⟨true, [], by simp [hsame, ha, harmed, hlow, Notices.takeMarked, State.modifyPool],
          fun h => absurd h (hno _), fun _ h => absurd h off, fun _ h => absurd h off,
          fun _ _ => ⟨(decide_eq_true hlow).symm, rfl⟩⟩
      · refine ⟨p.lowArmed, [], ?_, fun h => absurd h (hno _), fun _ h => absurd h off, fun _ h => absurd h off,
          fun _ _ => ⟨(ha.trans harmed).trans (decide_eq_false hlow).symm, rfl⟩⟩
        simp only
        rw [if_neg hsame, if_neg (by simp [ha, harmed]), if_neg hlow]
        rfl

theorem complete_marked (s : State) (fl : Flow) (outcome : DeferredCode → Completion × Option Detail) :
    s.complete fl.deferred outcome =
      { s with notices := s.notices.takeMarked s.engine.executing (fl.completion outcome) } := by
  cases hd : fl.deferred with
  | none => simp [State.complete, Flow.completion, hd, Notices.takeMarked]
  | some d => simp [State.complete, Flow.completion, hd, Notices.takeMarked, State.raiseCause, State.modifyNotices]

/-- R51, R100: an entry to CLOSED or FAILED, with the causes it raises in order. -/
theorem endFlow_marked (s : State) (f : FlowId) (new : FlowState) (cause : FlowCause)
    (failure : Option FailureCause) (keepBlock : Bool) (outcome : DeferredCode → Completion × Option Detail) :
    ∃ armed low, s.endFlow f new cause failure keepBlock outcome = { s with
        flows := writeAt s.flows f ((s.flow f).ended new failure keepBlock)
        pool := { s.pool.returnFlow f (s.flow f).collectedBuffers with
          reservation := writeAt s.pool.reservation f 0, lowArmed := armed }
        link := if keepBlock then s.link else s.link.unqueued f
        notices := s.notices.takeMarked s.engine.executing (low ++ ((s.flow f).completion outcome ++
          [.flowState f (s.flow f).state new cause])) } ∧
      s.LowPoolTested { s.pool.returnFlow f (s.flow f).collectedBuffers with
        reservation := writeAt s.pool.reservation f 0, lowArmed := armed } (s.notices.takeAll low) := by
  obtain ⟨armed, low, e, ht⟩ := lowPoolTest_marked s
    { s.pool.returnFlow f (s.flow f).collectedBuffers with reservation := writeAt s.pool.reservation f 0 } rfl
  refine ⟨armed, low, ?_, ht⟩
  have e' : s.emptyAccount f (s.flow f).collectedBuffers = { s with
      pool := { s.pool.returnFlow f (s.flow f).collectedBuffers with
        reservation := writeAt s.pool.reservation f 0, lowArmed := armed }
      notices := s.notices.takeMarked s.engine.executing low } := e
  unfold State.endFlow
  simp only [e']
  cases keepBlock <;>
    simp [complete_marked, State.clearPending, State.modifyLink, State.modifyFlow, State.flow, Flow.ended,
      State.raiseCause, State.modifyNotices, LinkPort.unqueued, Notices.takeMarked, List.foldl_append]

/-- R58: the end of a drain of origin LOCAL. -/
theorem completeDrain_local_marked {s : State} {f : FlowId} {fl : Flow} (hfl : readAt s.flows f = fl)
    (h : fl.drained = true) (ho : fl.drainOrigin = some .localEnd) :
    s.completeDrain f = { s with
      flows := writeAt s.flows f { fl with
        state := .closing, drainOrigin := none, attempts := 0, retxTimer := .stopped, pendingBlock := some .close }
      link := s.link.queued f
      notices := s.notices.takeMarked s.engine.executing [.flowState f .draining .closing .drained] } := by
  subst hfl
  have hs : (readAt s.flows f).state = .draining := ((drained_iff _).1 h).1
  have hd : (s.flow f).drained = true := h
  have hor : (s.flow f).drainOrigin = some .localEnd := ho
  unfold State.completeDrain
  simp only [hd, hor, if_true]
  rw [makePending_queued]
  simp [State.modifyFlow, changeFlowState_eq, State.flow, hs, Notices.takeMarked]

/-- R94, R100: a reservation that shared free covers is made. -/
theorem reserveFlow_marked {s : State} {f : FlowId} (h : (s.profile f).reserve ≤ s.pool.sharedFree) :
    ∃ armed low, s.reserveFlow f = some { s with
        pool := { s.pool with
          reservation := writeAt s.pool.reservation f (s.profile f).reserve, lowArmed := armed }
        notices := s.notices.takeMarked s.engine.executing low } ∧
      s.LowPoolTested { s.pool with
        reservation := writeAt s.pool.reservation f (s.profile f).reserve, lowArmed := armed }
        (s.notices.takeAll low) := by
  obtain ⟨armed, low, e, ht⟩ := lowPoolTest_marked s
    { s.pool with reservation := writeAt s.pool.reservation f (s.profile f).reserve } rfl
  refine ⟨armed, low, ?_, ht⟩
  rw [State.reserveFlow, if_pos h]
  exact congrArg some e

/-! ## Requests that name a flow, and requests without a body (R158) -/

/-- R158: the byte of a flow's number names that flow. -/
theorem withFlow_of_body {r : Request} {f : FlowId} (h : r.body = [BitVec.ofNat 8 f.val]) (s : State)
    (work : FlowId → Answer × State) : withFlow r s work = work f := by
  have hf : requestFlow r = some f := by
    have hv : f.val % 256 = f.val := by omega
    simp [requestFlow, h, byteAt, field, slice, beValue, flowOfByte, hv]
  simp only [withFlow, hf]

end Sys2Proof.Machine

namespace Sys2Proof.Machine

/-- R156, R173: a request whose work leaves the state u, in which it has raised some causes under its mark. -/
theorem request_takes {s u : State} {r : Request} {code : Byte} {c : Instr} {named : Byte → Bool}
    {work : Request → State → Answer × State} {a : Answer} {causes : List NoticeContent} (h : s.Takes r code)
    (hc : exec c s = s.execute named work) (hn : named code = true) (hw : work r (s.begin r) = (a, u))
    (hu : u.engine = { (s.begin r).engine with linkReply := u.engine.linkReply }) (hwire : u.wire = s.wire)
    (hnot : u.notices = s.notices.takeMarked (some ⟨r.source, r.tag⟩) causes) :
    ∃ t, exec c s = .next t.finish ∧ s.Answers t r a.status a.body u.engine.linkReply ∧ s.EngineKept t ∧
      t.notices = s.notices.takeAll causes ∧ u.Unchanged [.engine, .wire, .notices] t := by
  have hq : u.engine.requests = s.engine.requests.tail := by rw [hu]; simp [begin_eq]
  have hr : u.engine.record = s.engine.record := by rw [hu]; rfl
  obtain ⟨t, e, hans, hb, hst, ht, hrest⟩ := execute_effect h hc hn hw hq hr hwire
  refine ⟨t, e, hans, ⟨hb.trans (by rw [hu]; rfl), hst.trans (by rw [hu]; exact h.ready)⟩, ?_, hrest⟩
  rw [ht, hnot]
  exact (takes_clearMarks h.unmarked causes).1

/-- R100, R170: the causes of low-pool tests taken first, and then those of the happening. -/
theorem raises_of_taken {s t : State} {low causes : List NoticeContent}
    (h : s.LowPoolTested t.pool (s.notices.takeAll low)) (ht : t.notices = s.notices.takeAll (low ++ causes)) :
    s.Raises t causes := ⟨_, h, ht.trans (Notices.takeAll_append ..).symm⟩

/-! ## FLOW_OPEN (R52) -/

theorem openInProgress_iff (fl : Flow) : fl.openInProgress = true ↔
    fl.state = .opening ∧ ∃ tag, fl.deferred = some ⟨.flowOpen, tag⟩ := by
  unfold Flow.openInProgress
  cases hd : fl.deferred with
  | none => simp
  | some d => obtain ⟨code, tag⟩ := d; simp

theorem exec_flowOpen (s : State) : exec .flowOpen s = s.execute (· == codeFlowOpen) flowOpenWork := rfl

theorem flowOpenWork_of_body {r : Request} {f : FlowId} (h : r.body = [BitVec.ofNat 8 f.val]) (s : State) :
    flowOpenWork r s = flowOpenAt s f r.tag := withFlow_of_body h s _

theorem openInProgress_of_closed {fl : Flow} (h : fl.state = .closed) : fl.openInProgress = false := by
  simp [Flow.openInProgress, h]

theorem flowOpenAt_inProgress {s : State} {f : FlowId} (h : (s.flow f).openInProgress = true) (tag : Tag) :
    flowOpenAt s f tag = (.plain .inProgress, s) := by
  rw [flowOpenAt, if_pos h]

theorem flowOpenAt_wrongState {s : State} {f : FlowId} (h : ¬ (s.flow f).openInProgress = true)
    (hs : (s.flow f).state ≠ .closed) (tag : Tag) : flowOpenAt s f tag = (.plain .wrongState, s) := by
  rw [flowOpenAt, if_neg h, if_pos hs]

theorem flowOpenAt_notReliable {s : State} {f : FlowId} (hs : (s.flow f).state = .closed)
    (hm : (s.profile f).mode = .disabled) (tag : Tag) : flowOpenAt s f tag = (.plain .notReliable, s) := by
  simp [flowOpenAt, openInProgress_of_closed hs, hs, hm]

theorem flowOpenAt_noPartner {s : State} {f : FlowId} (hs : (s.flow f).state = .closed)
    (hm : (s.profile f).mode = .reliable) (hp : s.part.state ≠ .partnered) (tag : Tag) :
    flowOpenAt s f tag = (.plain .noPartner, s) := by
  simp [flowOpenAt, openInProgress_of_closed hs, hs, hm, hp]

theorem flowOpenAt_noBuffers {s : State} {f : FlowId} (hs : (s.flow f).state = .closed)
    (hm : (s.profile f).mode = .reliable) (hp : s.part.state = .partnered)
    (hr : s.pool.sharedFree < (s.profile f).reserve) (tag : Tag) :
    flowOpenAt s f tag = (.plain .noBuffers, s) := by
  simp [flowOpenAt, openInProgress_of_closed hs, hs, hm, hp, State.prepareOpening, reserveFlow_eq_none hr]

/-- R52: a FLOW_OPEN that passes every check. -/
theorem flowOpenAt_taken {s : State} {f : FlowId} (hs : (s.flow f).state = .closed)
    (hm : (s.profile f).mode = .reliable) (hp : s.part.state = .partnered)
    (hr : (s.profile f).reserve ≤ s.pool.sharedFree) (tag : Tag) :
    ∃ armed low, flowOpenAt s f tag = (.plain .accepted, { s with
        flows := writeAt s.flows f { (s.flow f).reinitialised (s.profile f).rtoBase with
          state := .opening, attempts := 0, deferred := some ⟨.flowOpen, tag⟩
          pendingBlock := some (.openFlow (s.profile f).window (s.profile f).order) }
        pool := { s.pool with
          reservation := writeAt s.pool.reservation f (s.profile f).reserve, lowArmed := armed }
        link := s.link.queued f
        notices := s.notices.takeMarked s.engine.executing (low ++ [.flowState f .closed .opening .request]) }) ∧
      s.LowPoolTested { s.pool with
        reservation := writeAt s.pool.reservation f (s.profile f).reserve, lowArmed := armed }
        (s.notices.takeAll low) := by
  obtain ⟨armed, low, e, ht⟩ := reserveFlow_marked hr
  refine ⟨armed, low, ?_, ht⟩
  have hst : (readAt s.flows f).state = .closed := hs
  unfold flowOpenAt
  simp only [openInProgress_of_closed hs, hs, hm, hp, State.prepareOpening, e]
  simp [State.takeOpening, State.makeOpenPending, makePending_queued, State.modifyFlow, changeFlowState_eq,
    Flow.reinitialised, State.flow, hst, Notices.takeMarked, State.profile]

end Sys2Proof.Machine

section
open Sys2Proof Sys2Proof.Machine

/-- Settles O55: the checks in their order, and what a FLOW_OPEN that passes them does. -/
theorem flowOpenTaken : Obligations.FlowOpenTaken := by
  intro s r f h hbody fl p pending
  have answers : ∀ {status}, flowOpenAt (s.begin r) f r.tag = (.plain status, s.begin r) →
      s.answersOnly .flowOpen r status [] := fun e =>
    answersOnly_of h exec_flowOpen rfl ((flowOpenWork_of_body hbody _).trans e)
  refine ⟨fun hp => answers ?_, fun hp hs => answers ?_, fun hs hm => answers ?_, fun hs hm hp => answers ?_,
    fun hs hm hp hr => answers ?_, fun hs hm hp hr => ?_⟩
  · exact flowOpenAt_inProgress (s := s.begin r) ((openInProgress_iff _).2 hp) _
  · exact flowOpenAt_wrongState (s := s.begin r) (fun h' => hp ((openInProgress_iff _).1 h')) hs _
  · exact flowOpenAt_notReliable (s := s.begin r) hs hm _
  · exact flowOpenAt_noPartner (s := s.begin r) hs hm hp _
  · exact flowOpenAt_noBuffers (s := s.begin r) hs hm hp hr _
  · obtain ⟨armed, low, e, hlow⟩ := flowOpenAt_taken (s := s.begin r) hs hm hp hr r.tag
    obtain ⟨t, hx, hans, hkept, hnot, hrest⟩ :=
      request_takes h (exec_flowOpen s) rfl ((flowOpenWork_of_body hbody _).trans e) rfl rfl rfl
    have hflows := hrest.flows (by simp)
    have hpool := hrest.pool (by simp)
    refine ⟨t, hx, hans, hkept, ?_, fun k hk => ?_, ?_, hrest.link (by simp), raises_of_taken ?_ hnot, ?_⟩
    · rw [State.flow, hflows]
      exact readAt_writeAt_same _ _ _
    · rw [State.flow, hflows]
      exact readAt_writeAt_ne _ _ (Ne.symm hk)
    · rw [hpool]
      rfl
    · rw [hpool]
      exact hlow.congr rfl rfl rfl
    · refine State.Unchanged.trans (l := [.flows, .pool, .link, .engine, .notices]) ?_ hrest
        fun q hq => by simp_all
      constructor <;> simp [begin_eq]

end

namespace Sys2Proof.Machine

/-! ## LINK_JOIN and LINK_LEAVE (R73, R86) -/

theorem bodyless_of_empty {r : Request} (h : r.body = []) (s : State) (work : Answer × State) :
    bodyless r s work = work := if_pos h

theorem exec_linkJoin (s : State) : exec .linkJoin s = s.execute (· == codeLinkJoin) linkJoinWork := rfl

theorem exec_linkLeave (s : State) : exec .linkLeave s = s.execute (· == codeLinkLeave) linkLeaveWork := rfl

theorem linkJoinWork_of_empty {r : Request} (h : r.body = []) (s : State) : linkJoinWork r s = joinAt s r.tag :=
  bodyless_of_empty h s _

theorem linkLeaveWork_of_empty {r : Request} (h : r.body = []) (s : State) :
    linkLeaveWork r s = (.plain .ok, if s.part.state = .silent then s else s.localLeave) :=
  bodyless_of_empty h s _

/-- R72, R73: a LINK_JOIN in SILENT. -/
theorem joinAt_silent {s : State} (hs : s.part.state = .silent) (tag : Tag) :
    ∃ epoch, s.part.ownEpoch ≠ some epoch ∧ joinAt s tag = (.plain .accepted, { s with
      part := { s.part with
        state := .joining, ownEpoch := some epoch, deferredJoin := some tag
        joinTimer := .running (s.params.joinLimit * 1000), helloPending := true, helloTimer := .running 200 }
      epochDraws := s.epochDraws + 1
      notices := s.notices.takeMarked s.engine.executing [.linkState .silent .joining .request] }) := by
  obtain ⟨epoch, hne, e⟩ := drawEpoch_eq s
  refine ⟨epoch, hne, ?_⟩
  unfold joinAt
  simp only [hs, State.startJoin, e]
  simp [changeLinkState_eq, State.modifyPart, Notices.takeMarked]

/-- R69, R86: what a LINK_LEAVE outside SILENT does. -/
theorem localLeave_eq {s : State} (hr : ∀ item ∈ s.engine.linkReply, item.restartResponse = false) :
    ∃ flows pool notices, s.localLeave = { s with
        part := { s.part.withdrawn with
          state := .silent, deferredJoin := none
          leavePending := if s.part.state = .joining then s.part.leavePending else s.part.ownEpoch }
        flows := flows, pool := pool, link := { s.link with lifecycleOrder := [] }
        engine := { s.engine with linkReply := s.engine.linkReply.take s.link.transmitter.repliesTaken }
        notices := notices.takeMarked s.engine.executing 
          (joinCompletion s.part.deferredJoin .aborted) } ∧
      (∀ t : State, t.flows = flows → t.pool = pool → t.link.lifecycleOrder = [] →
        s.FlowsEnded t (fun _ => .closed) none) ∧
      ((∀ f, (s.flow f).inUse = false) → pool = s.pool ∧ notices =
        s.notices.takeMarked s.engine.executing [.linkState s.part.state .silent .request]) ∧
      ∃ all, notices = s.notices.takeMarked s.engine.executing all ∧ LowPoolAmong s.params.poolLow all
        (.linkState s.part.state .silent .request :: s.flowCauses Flow.causesAtLocalLeave) := by
  obtain ⟨flows, pool, notices, e, h⟩ := localLeave_event.changed s .silent .request
  refine ⟨flows, pool, notices, ?_, h⟩
  unfold State.localLeave
  simp only [e, completeJoin_takes]
  exact discardReplies_plain (by exact hr)

/-- R173: causes that leave the same marked notices leave the same notices once the marks are cleared. -/
theorem takeAll_eq_of_marked {n : Notices} (hn : ∀ q ∈ n.queue, q.held = none) {mark : RequestMark}
    {a b : List NoticeContent} (h : n.takeMarked (some mark) a = n.takeMarked (some mark) b)
    (more : List NoticeContent) : n.takeAll (a ++ more) = n.takeAll (b ++ more) := by
  have cleared : ∀ l, (n.takeMarked (some mark) l).clearMarks mark = n.takeAll l := fun l => (takes_clearMarks hn l).1
  rw [← cleared, ← cleared, ← takeMarked_append, ← takeMarked_append, h]

end Sys2Proof.Machine

section
open Sys2Proof Sys2Proof.Machine

/-- Settles O57: LINK_JOIN and LINK_LEAVE by the partnership's state. -/
theorem joinAndLeave : Obligations.JoinAndLeave := by
  intro s r hbody
  refine ⟨fun h => ?_, fun h => ?_⟩
  · have answers : ∀ {status}, joinAt (s.begin r) r.tag = (.plain status, s.begin r) →
        s.answersOnly .linkJoin r status [] := fun e =>
      answersOnly_of h exec_linkJoin rfl ((linkJoinWork_of_empty hbody _).trans e)
    have hb : (s.begin r).part = s.part := rfl
    refine ⟨fun hs => ?_, fun hs hd => answers ?_, fun hs => answers ?_⟩
    · obtain ⟨epoch, hne, e⟩ := joinAt_silent (s := s.begin r) hs r.tag
      obtain ⟨t, hx, hans, hkept, hnot, hrest⟩ :=
        request_takes h (exec_linkJoin s) rfl ((linkJoinWork_of_empty hbody _).trans e) rfl rfl rfl
      refine ⟨t, epoch, hx, hans, hkept, hne, hrest.part (by simp), hnot, ?_⟩
      refine State.Unchanged.trans (l := [.part, .epochDraws, .engine, .notices]) ?_ hrest fun q hq => by simp_all
      constructor <;> simp [begin_eq]
    · simp only [joinAt, hb, hs, hd, if_true]
    · rcases hs with ⟨hs, hd⟩ | hs | hs
      · simp [joinAt, hb, hs, hd]
      · simp only [joinAt, hb, hs]
      · simp only [joinAt, hb, hs]
  · have hb : (s.begin r).part = s.part := rfl
    refine ⟨fun hs => ?_, fun hs hr => ?_⟩
    · refine answersOnly_of h exec_linkLeave rfl ((linkLeaveWork_of_empty hbody _).trans ?_)
      rw [if_pos (by exact hs)]
      rfl
    · intro taken
      obtain ⟨flows, pool, notices, e, hended, hquiet, all, hn, hlow⟩ := localLeave_eq (s := s.begin r) hr
      have hwork : linkLeaveWork r (s.begin r) = (.plain .ok, (s.begin r).localLeave) := by
        rw [linkLeaveWork_of_empty hbody, if_neg (by exact hs)]
      obtain ⟨t, hx, hans, hkept, hnot, hrest⟩ := request_takes
        (causes := all ++ joinCompletion s.part.deferredJoin .aborted) h (exec_linkLeave s) rfl
        (hwork.trans (congrArg _ e)) rfl rfl
        ((congrArg (fun n => Notices.takeMarked n _ _) hn).trans (takeMarked_append ..))
      have hflows := hrest.flows (by simp)
      have hpool := hrest.pool (by simp)
      have hlink := hrest.link (by simp)
      refine ⟨t, hx, hans, hkept, hrest.part (by simp), { hended t hflows hpool (by rw [hlink]) with }, hlink, ?_, ?_⟩
      · intro joined
        have hjoin : joined = joinCompletion s.part.deferredJoin .aborted := rfl
        have hl : LowPoolAmong s.params.poolLow (all ++ joined)
            (.linkState s.part.state .silent .request :: s.flowCauses Flow.causesAtLocalLeave ++ joined) :=
          hlow.append (.plain (hjoin ▸ joinCompletion_plain _ _))
        refine ⟨fun hu => ?_, all ++ joined, hnot, hl.others, hl.low⟩
        obtain ⟨hp, hq⟩ := hquiet hu
        exact ⟨hpool.trans hp, hnot.trans (takeAll_eq_of_marked h.unmarked (hn.symm.trans hq) _)⟩
      · refine State.Unchanged.trans (l := [.flows, .pool, .link, .part, .engine, .notices]) ?_ hrest
          fun q hq => by simp_all
        constructor <;> simp [begin_eq]

end

namespace Sys2Proof.Machine

/-! ## FLOW_CLOSE, FLOW_ABORT and FLOW_RESET (R57, R62, R64) -/

theorem exec_flowClose (s : State) : exec .flowClose s = s.execute (· == codeFlowClose) flowCloseWork := rfl

theorem exec_flowAbort (s : State) : exec .flowAbort s = s.execute (· == codeFlowAbort) flowAbortWork := rfl

theorem exec_flowReset (s : State) : exec .flowReset s = s.execute (· == codeFlowReset) flowResetWork := rfl

theorem flowCloseWork_of_body {r : Request} {f : FlowId} (h : r.body = [BitVec.ofNat 8 f.val]) (s : State) :
    flowCloseWork r s = flowCloseAt s f r.tag := withFlow_of_body h s _

theorem flowAbortWork_of_body {r : Request} {f : FlowId} (h : r.body = [BitVec.ofNat 8 f.val]) (s : State) :
    flowAbortWork r s = flowAbortAt s f := withFlow_of_body h s _

theorem flowResetWork_of_body {r : Request} {f : FlowId} (h : r.body = [BitVec.ofNat 8 f.val]) (s : State) :
    flowResetWork r s = flowResetAt s f := withFlow_of_body h s _

/-- R57: the flow that a FLOW_CLOSE finds OPEN, in the state that its change leaves. -/
theorem flowCloseAt_opened {s : State} {f : FlowId} (hs : (s.flow f).state = .opened) (tag : Tag) :
    flowCloseAt s f tag = (.plain .accepted, State.completeDrain { s with
      flows := writeAt s.flows f { s.flow f with
        state := .draining, drainOrigin := some .localEnd, deferred := some ⟨.flowClose, tag⟩ }
      notices := s.notices.takeMarked s.engine.executing [.flowState f .opened .draining .request] } f) := by
  have hs' : (readAt s.flows f).state = .opened := hs
  simp only [flowCloseAt, hs]
  simp [State.startDrain, changeFlowState_eq, State.modifyFlow, State.flow, hs', Notices.takeMarked]

/-- R62: an abort of a flow in use, with the ABORT that it owes while PARTNERED. -/
theorem abortFlow_marked (s : State) (f : FlowId) :
    ∃ armed low block link, s.abortFlow f = { s with
        flows := writeAt s.flows f ({ s.flow f with pendingBlock := block }.ended .closed none true)
        pool := { s.pool.returnFlow f (s.flow f).collectedBuffers with
          reservation := writeAt s.pool.reservation f 0, lowArmed := armed }
        link := link
        notices := s.notices.takeMarked s.engine.executing (low ++ ((s.flow f).completion (plainOutcome .aborted) ++
          [.flowState f (s.flow f).state .closed .request])) } ∧
      s.LowPoolTested { s.pool.returnFlow f (s.flow f).collectedBuffers with
        reservation := writeAt s.pool.reservation f 0, lowArmed := armed } (s.notices.takeAll low) ∧
      (∀ b ∈ block, b.owedAtRest) ∧
      (s.part.state = .partnered → block = some .abort ∧ link = s.link.queued f) ∧
      (s.part.state ≠ .partnered → block = none ∧ link = s.link.unqueued f) := by
  by_cases hp : s.part.state = .partnered
  · have hm : (s.makePending f .abort).flow f = { s.flow f with pendingBlock := some .abort } := by
      simp [State.makePending]
    obtain ⟨armed, low, e, hlow⟩ := endFlow_marked (s.makePending f .abort) f .closed .request none true
      (plainOutcome .aborted)
    rw [hm] at e hlow
    refine ⟨armed, low, some .abort, s.link.queued f, ?_, hlow.congr rfl rfl rfl, by simp [LifecycleBlock.owedAtRest],
      fun _ => ⟨rfl, rfl⟩, fun h => absurd hp h⟩
    rw [State.abortFlow, if_pos hp, State.closeFlow, e]
    simp only [makePending_queued, writeAt_writeAt]
    rfl
  · obtain ⟨armed, low, e, hlow⟩ := endFlow_marked s f .closed .request none false (plainOutcome .aborted)
    refine ⟨armed, low, none, s.link.unqueued f, ?_, hlow, by simp, fun h => absurd h hp, fun _ => ⟨rfl, rfl⟩⟩
    rw [State.abortFlow, if_neg hp, State.closeFlow, e]
    rfl

/-- R51, R64: a FAILED flow at rest loses nothing but its state when it returns to CLOSED. -/
theorem ended_of_atRest {fl : Flow} (h : fl.atRest) : fl.ended .closed none true = { fl with state := .closed } := by
  obtain ⟨h1, h2, h3, h4, h5, h6, h7, h8, h9, h10, h11, h12, h13, -⟩ := h
  simp [Flow.ended, h1, h2, h3, h4, h5, h6, h7, h8, h9, h10, h11, h12, h13]

/-- R95, R100: an account that holds nothing to return and no reservation is emptied without a test. -/
theorem emptyAccount_of_empty {s : State} {f : FlowId} (hz : readAt s.pool.reservation f = 0) :
    s.emptyAccount f 0 = s := by
  have hw : writeAt s.pool.reservation f 0 = s.pool.reservation := by rw [← hz, writeAt_readAt]
  have hp : { s.pool.returnFlow f 0 with reservation := writeAt s.pool.reservation f 0 } = s.pool := by
    simp [Pool.returnFlow, writeAt_readAt, hw]
  have hpool : ({ s with pool := { s.pool.returnFlow f 0 with
      reservation := writeAt s.pool.reservation f 0 } } : State) = s := by rw [hp]
  change State.lowPoolTest _ _ = _
  refine (congrArg (fun u : State => u.lowPoolTest s.pool.sharedFree) hpool).trans ?_
  simp [State.lowPoolTest]

/-- R64: a flow at rest without a reservation returns to CLOSED with its pending block kept. -/
theorem flowResetAt_failed {s : State} {f : FlowId} (hs : (s.flow f).state = .failed) (hr : (s.flow f).atRest)
    (hz : readAt s.pool.reservation f = 0) : flowResetAt s f = (.plain .ok, { s with
      flows := writeAt s.flows f { s.flow f with state := .closed }
      notices := s.notices.takeMarked s.engine.executing [.flowState f .failed .closed .request] }) := by
  have hended := ended_of_atRest hr
  obtain ⟨hq, hw, -, hre, -, -, -, -, -, -, -, -, hd, -⟩ := hr
  have hc : (s.flow f).collectedBuffers = 0 := by simp [Flow.collectedBuffers, hq, hw, hre]
  have hempty := emptyAccount_of_empty hz
  rw [flowResetAt, if_pos hs, State.closeFlow, State.endFlow]
  simp only [hc, hempty, hd]
  simp [State.complete, State.modifyFlow, State.raiseCause, State.modifyNotices, hs, hd, hended, Notices.takeMarked]

theorem flows_of_write {s t : State} {f : FlowId} {fl : Flow} (h : t.flows = writeAt s.flows f fl) :
    t.flow f = fl ∧ ∀ k, k ≠ f → t.flow k = s.flow k := by
  refine ⟨?_, fun k hk => ?_⟩
  · rw [State.flow, h, readAt_writeAt_same]
  · rw [State.flow, h, readAt_writeAt_ne _ _ (Ne.symm hk)]
    rfl

/-- R51: an entry to CLOSED with a block that the state before it need not hold. -/
theorem flowEnded_of_owing {s t : State} {f : FlowId} {block : Option LifecycleBlock} {armed : Bool}
    (hb : (s.flow f).collectedBuffers ≤ s.held f)
    (ht : t.flows = writeAt s.flows f ({ s.flow f with pendingBlock := block }.ended .closed none true))
    (hp : t.pool = { s.pool.returnFlow f (s.flow f).collectedBuffers with
      reservation := writeAt s.pool.reservation f 0, lowArmed := armed })
    (hk : ∀ b ∈ block, b.owedAtRest) : s.FlowEnded t f .closed := by
  let u : State := { s with flows := writeAt s.flows f { s.flow f with pendingBlock := block } }
  have hu : u.flow f = { s.flow f with pendingBlock := block } := readAt_writeAt_same _ _ _
  have hended : u.FlowEnded t f .closed := by
    refine flowEnded_of_ended (failure := none) (keep := true) (armed := armed) ?_ ?_ ?_ ?_
    · rw [hu]; exact hb
    · rw [hu, ht]; exact (writeAt_writeAt ..).symm
    · rw [hu, hp]; rfl
    · rw [hu]; exact hk
  refine hended.congr ?_ ?_ (fun k hne => readAt_writeAt_ne _ _ (Ne.symm hne)) rfl
  · rw [hu]; exact ⟨rfl, rfl, rfl, rfl⟩
  · rw [hu]; rfl

end Sys2Proof.Machine

section
open Sys2Proof Sys2Proof.Machine

/-- Settles O56: FLOW_CLOSE, FLOW_ABORT and FLOW_RESET by the flow's state. -/
theorem flowCloseAbortReset : Obligations.FlowCloseAbortReset := by
  intro s r f hbody fl
  have hf : (s.begin r).flow f = fl := rfl
  refine ⟨fun h => ?_, fun h => ?_, fun h => ?_⟩
  · have answers : ∀ {status}, flowCloseAt (s.begin r) f r.tag = (.plain status, s.begin r) →
        s.answersOnly .flowClose r status [] := fun e =>
      answersOnly_of h exec_flowClose rfl ((flowCloseWork_of_body hbody _).trans e)
    refine ⟨fun hs hbusy => ?_, fun hs hidle => ?_, fun hs => answers ?_, fun hs => answers ?_⟩
    · have e := flowCloseAt_opened (s := s.begin r) hs r.tag
      rw [completeDrain_waits (.inl (Bool.eq_false_iff.2 fun hd => ?_))] at e
      · obtain ⟨t, hx, hans, hkept, hnot, hrest⟩ :=
          request_takes h (exec_flowClose s) rfl ((flowCloseWork_of_body hbody _).trans e) rfl rfl rfl
        obtain ⟨hflow, hothers⟩ := flows_of_write (s := s) (hrest.flows (by simp))
        refine ⟨t, hx, hans, hkept, hflow, hothers, hnot, ?_⟩
        refine State.Unchanged.trans (l := [.flows, .engine, .notices]) ?_ hrest fun q hq => by simp_all
        constructor <;> simp [begin_eq]
      · rw [State.flow, readAt_writeAt_same] at hd
        exact (drained_iff_not_busy (by rfl)).1 hd hbusy
    · have e := flowCloseAt_opened (s := s.begin r) hs r.tag
      have hdr : ({ fl with
          state := .draining, drainOrigin := some .localEnd, deferred := some ⟨.flowClose, r.tag⟩ } :
          Machine.Flow).drained = true := (drained_iff_not_busy rfl).2 hidle
      rw [completeDrain_local_marked (readAt_writeAt_same _ _ _) hdr rfl] at e
      simp only [writeAt_writeAt, takeMarked_append] at e
      obtain ⟨t, hx, hans, hkept, hnot, hrest⟩ :=
        request_takes h (exec_flowClose s) rfl ((flowCloseWork_of_body hbody _).trans e) rfl rfl rfl
      obtain ⟨hflow, hothers⟩ := flows_of_write (s := s) (hrest.flows (by simp))
      refine ⟨t, hx, hans, hkept, hflow, hothers, hrest.link (by simp), hnot, ?_⟩
      refine State.Unchanged.trans (l := [.flows, .link, .engine, .notices]) ?_ hrest fun q hq => by simp_all
      constructor <;> simp [begin_eq]
    · simp only [flowCloseAt, hf]
      rcases hs with hs | hs <;> simp only [hs]
    · simp only [flowCloseAt, hf]
      rcases hs with hs | hs | hs <;> simp only [hs]
  · refine ⟨fun hu hb => ?_, fun hu => ?_⟩
    · obtain ⟨armed, low, block, link, e, hlow, howed, hpart, hnopart⟩ := abortFlow_marked (s.begin r) f
      have hwork : flowAbortWork r (s.begin r) = (.plain .ok, (s.begin r).abortFlow f) := by
        rw [flowAbortWork_of_body hbody, flowAbortAt, if_pos (by exact hu)]
      obtain ⟨t, hx, hans, hkept, hnot, hrest⟩ :=
        request_takes h (exec_flowAbort s) rfl (hwork.trans (congrArg _ e)) rfl rfl rfl
      have hflows := hrest.flows (by simp)
      have hpool := hrest.pool (by simp)
      have hlink := hrest.link (by simp)
      obtain ⟨hflow, -⟩ := flows_of_write (s := s) hflows
      refine ⟨t, hx, hans, hkept, flowEnded_of_owing (s := s) hb hflows hpool howed, by rw [hflow]; rfl,
        fun hp => ?_, fun hp => ?_, raises_of_taken (by rw [hpool]; exact hlow.congr rfl rfl rfl) hnot, ?_⟩
      · obtain ⟨hblock, hl⟩ := hpart hp
        exact ⟨by rw [hflow]; exact hblock, hlink.trans hl⟩
      · obtain ⟨hblock, hl⟩ := hnopart hp
        exact ⟨by rw [hflow]; exact hblock, hlink.trans hl⟩
      · refine State.Unchanged.trans (l := [.flows, .pool, .link, .engine, .notices]) ?_ hrest
          fun q hq => by simp_all
        constructor <;> simp [begin_eq]
    · refine answersOnly_of h exec_flowAbort rfl ((flowAbortWork_of_body hbody _).trans ?_)
      rw [flowAbortAt, if_neg (by simp [hf, hu])]
      rfl
  · refine ⟨fun hs hr hz => ?_, fun hs => ?_⟩
    · have e := flowResetAt_failed (s := s.begin r) hs hr hz
      obtain ⟨t, hx, hans, hkept, hnot, hrest⟩ :=
        request_takes h (exec_flowReset s) rfl ((flowResetWork_of_body hbody _).trans e) rfl rfl rfl
      obtain ⟨hflow, hothers⟩ := flows_of_write (s := s) (hrest.flows (by simp))
      refine ⟨t, hx, hans, hkept, hflow, hothers, hnot, ?_⟩
      refine State.Unchanged.trans (l := [.flows, .engine, .notices]) ?_ hrest fun q hq => by simp_all
      constructor <;> simp [begin_eq]
    · refine answersOnly_of h exec_flowReset rfl ((flowResetWork_of_body hbody _).trans ?_)
      rw [flowResetAt, if_neg (by exact hs)]
      rfl

end

namespace Sys2Proof.Machine

/-! ## A delivered block (R143, R144) -/

theorem exec_linkBlockDelivery (s : State) (received : List Byte) (receivedInError : Bool) :
    exec (.linkBlockDelivery received receivedInError) s =
      .next (s.deliverBlock received receivedInError).finish := rfl

/-- R143 step 1: a block received in error, or one whose CRC does not hold. -/
theorem deliverBlock_bad {s : State} {received : List Byte} {receivedInError : Bool}
    (h : receivedInError = true ∨ checkHolds received = false) :
    s.deliverBlock received receivedInError = { s with
      deviceCounters := { s.deviceCounters with linkRxBad := s.deviceCounters.linkRxBad + 1 } } := by
  rw [State.deliverBlock, if_pos (by simpa using h)]
  rfl

/-- R143 step 2: what does not read as a block of this manual. -/
theorem deliverBlock_malformed {s : State} {received : List Byte} (hc : checkHolds received = true)
    (hr : readBlock (checkedPart received) = none) :
    s.deliverBlock received false = { s with
      deviceCounters := { s.deviceCounters with linkRxMalformed := s.deviceCounters.linkRxMalformed + 1 } } := by
  rw [State.deliverBlock, if_neg (by simp [hc]), hr]
  rfl

/-- R143, R144: a block that passes both checks is counted and routed. -/
theorem deliverBlock_routed {s : State} {received : List Byte} {b : LinkBlock}
    (hc : checkHolds received = true) (hr : readBlock (checkedPart received) = some b) :
    s.deliverBlock received false = { s with
      deviceCounters := { s.deviceCounters with blocksReceived := s.deviceCounters.blocksReceived + 1 }
      link := s.link.route b } := by
  rw [State.deliverBlock, if_neg (by simp [hc]), hr]
  rfl

end Sys2Proof.Machine

section
open Sys2Proof Sys2Proof.Machine

/-- Settles O22: by the two checks, and for a block that passes them by its kind. -/
theorem deliveredBlockDispatched : Obligations.DeliveredBlockDispatched := by
  intro s received receivedInError
  refine ⟨fun h => ?_, fun he hc hr => ?_, fun b he hc hr => ?_⟩
  · rw [exec_linkBlockDelivery, deliverBlock_bad h]
  · rw [exec_linkBlockDelivery, he, deliverBlock_malformed hc hr]
  · rw [exec_linkBlockDelivery, he, deliverBlock_routed hc hr]
    obtain ⟨epoch, body⟩ := b
    cases body <;> rfl

end

namespace Sys2Proof.Machine

/-! ## Partnership and bulk grants (R74, R82, R113, R138, R140, R152) -/

/-- R74, R139: a partnership grant arrives with the grant no longer in transit. -/
theorem execPartnershipGrant_eq {s : State} (h : s.link.grant = some .partnership) :
    exec .partnershipGrant s = .next s.declined.partnershipGrantAt.finish := by
  simp only [exec, execPartnershipGrant, h]
  rfl

/-- R113, R139: a bulk grant arrives with the grant no longer in transit. -/
theorem execBulkGrant_eq {s : State} (h : s.link.grant = some .bulk) :
    exec .bulkGrant s = .next s.declined.bulkGrantAt.finish := by
  simp only [exec, execBulkGrant, h]
  rfl

/-- R74, R82, R140: a block presented after its mark is cleared, in any partnership state. The clearing touches neither
the partnership's state nor the keepalive timer. -/
theorem present_presentingInAny (s : State) (b : LinkBlock) (owner : LinkOwner) {g : Partnership → Partnership}
    (hs : (g s.part).state = s.part.state)
    (hk : ∀ t, g { s.part with keepaliveTimer := t } = { g s.part with keepaliveTimer := t }) :
    (s.declined.modifyPart g).present b owner =
      { s.presentingInAny owner b with part := g (s.presentingInAny owner b).part } := by
  have hp : ((s.declined.modifyPart g).part.state = .partnered) = (s.part.state = .partnered) := congrArg (· = _) hs
  rw [present_eq, State.presentingInAny]
  simp only [hp]
  split
  · rw [State.presenting, hk]
    rfl
  · rfl

theorem offersHello_iff (p : Partnership) : p.offersHello = true ↔
    p.helloPending = true ∧ p.state ≠ .silent ∧ p.ownEpoch.isSome = true := by
  simp [Partnership.offersHello, and_assoc]

theorem offersKeepalive_iff (p : Partnership) : p.offersKeepalive = true ↔
    p.keepalivePending = true ∧ p.state = .partnered ∧ p.ownEpoch.isSome = true := by
  simp [Partnership.offersKeepalive, and_assoc]

/-- R74: a LEAVE goes first, in any state. -/
theorem partnershipGrantAt_leave {s : State} {epoch : Epoch} (h : s.part.leavePending = some epoch) :
    s.partnershipGrantAt = s.sendLeave epoch := by
  simp only [State.partnershipGrantAt, h]

/-- R74: with no LEAVE pending, a HELLO that is offered. -/
theorem partnershipGrantAt_hello {s : State} {own : Epoch} (hl : s.part.leavePending = none)
    (ho : s.part.ownEpoch = some own) (h : s.part.offersHello = true) :
    s.partnershipGrantAt = s.sendHello own := by
  simp only [State.partnershipGrantAt, hl, ho, h, if_true]

/-- R74: with neither, a KEEPALIVE that is offered. -/
theorem partnershipGrantAt_keepalive {s : State} {own : Epoch} (hl : s.part.leavePending = none)
    (ho : s.part.ownEpoch = some own) (hh : s.part.offersHello = false) (h : s.part.offersKeepalive = true) :
    s.partnershipGrantAt = s.sendKeepalive own := by
  simp [State.partnershipGrantAt, hl, ho, hh, h]

/-- R74, R139: with nothing offered the grant is declined. -/
theorem partnershipGrantAt_declined {s : State} (hl : s.part.leavePending = none)
    (hh : s.part.offersHello = false) (hk : s.part.offersKeepalive = false) : s.partnershipGrantAt = s := by
  cases ho : s.part.ownEpoch <;> simp [State.partnershipGrantAt, hl, ho, hh, hk]

/-- R152: the head of the link reply queue goes first, and stays queued. -/
theorem bulkGrantAt_reply {s : State} {epoch : Epoch} {item : ReplyItem} {rest : List ReplyItem}
    (hp : s.part.state = .partnered) (he : s.part.ownEpoch = some epoch) (hq : s.engine.linkReply = item :: rest) :
    s.declined.bulkGrantAt = { s.presenting .linkReply ⟨epoch, .bulk 3 item.frame⟩ with
      link := { (s.presenting .linkReply ⟨epoch, .bulk 3 item.frame⟩).link with bulkCredit := 0 } } := by
  have hq' : s.declined.engine.linkReply = item :: rest := hq
  simp only [State.bulkGrantAt, carrierEpoch_of_partnered hp he, hq', State.bulkTaken]
  rw [present_eq, if_pos (by exact hp)]
  rfl

/-- R113: with no reply queued, the head of the link bulk queue, which leaves it. -/
theorem bulkGrantAt_frame {s : State} {epoch : Epoch} {item : BulkItem} {rest : List BulkItem}
    (hp : s.part.state = .partnered) (he : s.part.ownEpoch = some epoch) (hr : s.engine.linkReply = [])
    (hq : s.link.bulkQueue = item :: rest) :
    s.declined.bulkGrantAt = { s.presenting .bulkBuffer ⟨epoch, .bulk item.cls item.frame⟩ with
      link := { (s.presenting .bulkBuffer ⟨epoch, .bulk item.cls item.frame⟩).link with
        bulkQueue := rest, bulkCredit := 0 } } := by
  have hr' : s.declined.engine.linkReply = [] := hr
  have hq' : s.declined.link.bulkQueue = item :: rest := hq
  simp only [State.bulkGrantAt, carrierEpoch_of_partnered hp he, hr', hq', State.bulkTaken]
  rw [present_eq, if_pos (by exact hp)]
  rfl

/-- R113, R139: outside PARTNERED, and with both queues empty, the grant is declined. -/
theorem bulkGrantAt_declined {s : State} (h : s.part.state ≠ .partnered ∨ s.part.ownEpoch = none ∨
      (s.engine.linkReply = [] ∧ s.link.bulkQueue = [])) : s.declined.bulkGrantAt = s.declined := by
  unfold State.bulkGrantAt
  split
  · rfl
  · next epoch he =>
    obtain ⟨hp, hown⟩ : s.part.state = .partnered ∧ s.part.ownEpoch = some epoch :=
      Option.ite_none_right_eq_some.1 he
    rcases h with h | h | ⟨hr, hq⟩
    · exact absurd hp h
    · rw [h] at hown; cases hown
    · have hr' : s.declined.engine.linkReply = [] := hr
      have hq' : s.declined.link.bulkQueue = [] := hq
      simp only [hr', hq']

end Sys2Proof.Machine

section
open Sys2Proof Sys2Proof.Machine

/-- Settles O29: LEAVE before HELLO before KEEPALIVE, a reply before a bulk frame, and nothing otherwise. -/
theorem partnershipAndBulkGrantsSend : Obligations.PartnershipAndBulkGrantsSend := by
  refine ⟨fun s hg => ⟨fun epoch hl => ?_, fun own hl hs hh ho => ?_, fun own hl hh hs hk ho => ?_,
    fun hl hh hk => ?_⟩, fun s epoch hg hp he => ⟨fun item rest hq => ?_, fun item rest hr hq => ?_⟩,
    fun s hg h => ?_⟩
  · rw [execPartnershipGrant_eq hg, partnershipGrantAt_leave (s := s.declined) hl, State.sendLeave,
      present_presentingInAny s _ _ (by rfl) fun _ => rfl]
    rfl
  · rw [execPartnershipGrant_eq hg, partnershipGrantAt_hello (s := s.declined) hl ho
      ((offersHello_iff s.part).2 ⟨hh, hs, by simp [ho]⟩), State.sendHello,
      present_presentingInAny s _ _ (by rfl) fun _ => rfl]
    rfl
  · have hno : s.part.offersHello = false := by simp [Partnership.offersHello, hh]
    rw [execPartnershipGrant_eq hg, partnershipGrantAt_keepalive (s := s.declined) hl ho hno
      ((offersKeepalive_iff s.part).2 ⟨hk, hs, by simp [ho]⟩), State.sendKeepalive,
      present_presentingInAny s _ _ (by rfl) fun _ => rfl]
  · have hnoHello : s.part.offersHello = false := Bool.eq_false_iff.2 fun h => by
      obtain ⟨h1, h2, h3⟩ := (offersHello_iff _).1 h
      rcases hh with h | h | h
      · exact h2 h
      · simp [h] at h1
      · simp [h] at h3
    have hnoKeepalive : s.part.offersKeepalive = false := Bool.eq_false_iff.2 fun h => by
      obtain ⟨h1, h2, h3⟩ := (offersKeepalive_iff _).1 h
      rcases hk with h | h | h
      · exact h h2
      · simp [h] at h1
      · simp [h] at h3
    rw [execPartnershipGrant_eq hg, partnershipGrantAt_declined (s := s.declined) hl hnoHello hnoKeepalive]
  · rw [execBulkGrant_eq hg, bulkGrantAt_reply hp he hq]
  · rw [execBulkGrant_eq hg, bulkGrantAt_frame hp he hr hq]
  · rw [execBulkGrant_eq hg, bulkGrantAt_declined h]

end

namespace Sys2Proof.Machine

/-! ## A HELLO by the partnership's state (R76 to R79) -/

theorem execHelloReceived_eq {s : State} {epoch : Epoch} {unit : Address} {seen : Option Epoch}
    {rest : List LinkBlock} (hl : s.link.toPartnership = ⟨epoch, .hello unit seen⟩ :: rest) :
    exec .helloReceived s = .next (State.helloAtPartnership
      { s with link := { s.link with toPartnership := rest } } epoch unit seen).finish := by
  simp only [exec, execHelloReceived, hl]
  rfl

/-- R76: in SILENT every HELLO is stale. -/
theorem helloAtPartnership_silent {s : State} (hs : s.part.state = .silent) (epoch : Epoch) (unit : Address)
    (seen : Option Epoch) : s.helloAtPartnership epoch unit seen = s.countStale := by
  simp only [State.helloAtPartnership, hs]

/-- R76: what the screen counts as foreign: the own unit, one that is not the expected one, or one that is not the
recorded one. -/
theorem helloAtPartnership_foreign {s : State} {unit : Address}
    (h : (s.part.state ≠ .silent ∧ unit = s.unitId) ∨
      (s.part.state = .joining ∧ s.params.expectedPartner ≠ none ∧ s.params.expectedPartner ≠ some unit) ∨
      ((s.part.state = .partnered ∨ s.part.state = .lost) ∧ s.part.partnerUnit ≠ some unit))
    (epoch : Epoch) (seen : Option Epoch) : s.helloAtPartnership epoch unit seen = s.countForeign := by
  unfold State.helloAtPartnership
  cases hs : s.part.state with
  | silent => simp [hs] at h
  | joining =>
    simp only [hs] at h ⊢
    by_cases hu : unit = s.unitId
    · rw [if_pos hu]
    · rw [if_neg hu, if_pos (by simpa [hu, Option.isSome_iff_ne_none] using h)]
  | partnered | lost =>
    simp only [hs] at h ⊢
    rw [if_pos (by simpa using h)]

/-- R77: a HELLO that passes the screen in JOINING. -/
theorem helloAtPartnership_joining {s : State} {unit : Address} (hs : s.part.state = .joining)
    (hu : unit ≠ s.unitId) (hx : s.params.expectedPartner = none ∨ s.params.expectedPartner = some unit)
    (epoch : Epoch) (seen : Option Epoch) :
    s.helloAtPartnership epoch unit seen = s.helloInJoining epoch unit seen := by
  simp only [State.helloAtPartnership, hs]
  rw [if_neg hu, if_neg (by rcases hx with hx | hx <;> simp [hx])]

/-- R78: a HELLO with the partner epoch that passes the screen in PARTNERED. -/
theorem helloAtPartnership_partnered {s : State} {epoch : Epoch} {unit : Address} (hs : s.part.state = .partnered)
    (hu : unit ≠ s.unitId) (hp : s.part.partnerUnit = some unit) (he : s.part.partnerEpoch = some epoch)
    (seen : Option Epoch) :
    s.helloAtPartnership epoch unit seen = (s.modifyPart (·.heardHello seen)).restartSilence := by
  simp only [State.helloAtPartnership, hs]
  rw [if_neg (by tauto), State.helloInPartnered, if_pos he]

/-- R78 rows 1 to 3: what a HELLO with the partner epoch marks. -/
theorem heardHello_eq (p : Partnership) (seen : Option Epoch) : p.heardHello seen = { p with
    repeatMark := p.repeatMark || p.confirms seen
    helloPending := p.helloPending || p.repeatMark || !p.confirms seen } := by
  unfold Partnership.heardHello
  cases p.confirms seen with
  | false => simp
  | true =>
    cases hr : p.repeatMark with
    | false => simp
    | true => simp [← hr]

/-- R79: a HELLO with the partner epoch in LOST that does not confirm this bridge. -/
theorem helloInLost_waits {s : State} {epoch : Epoch} {seen : Option Epoch} (he : s.part.partnerEpoch = some epoch)
    (hc : ¬ s.part.confirmedBy seen) (unit : Address) :
    s.helloInLost epoch unit seen = s.modifyPart fun p => { p with helloPending := true } := by
  rw [State.helloInLost, if_pos he, if_neg fun h => hc ((confirms_iff _ _).1 h)]

end Sys2Proof.Machine

section
open Sys2Proof Sys2Proof.Machine

/-- Settles O41: by the screen, and for a HELLO that passes it by the partnership's state. -/
theorem helloReceived : Obligations.HelloReceived := by
  intro s epoch unit seen rest hx hl p u c
  rw [execHelloReceived_eq hl]
  refine ⟨fun hs => ?_, fun h => ?_, fun hs hu hexp => ⟨fun hc => ?_, fun hc => ?_⟩, fun hs hu hp he => ?_,
    fun hs hu hp he hc => ?_⟩
  · rw [helloAtPartnership_silent (s := u) hs]
    rfl
  · rw [helloAtPartnership_foreign (s := u) h]
    rfl
  · rw [helloAtPartnership_joining (s := u) hs hu hexp, helloInJoining_waits (s := u) hc]
  · rw [helloAtPartnership_joining (s := u) hs hu hexp, helloInJoining_confirms (s := u) hc,
      handshake_takes (by exact hx)]
    simp only [show u.part.state = .joining from hs]
    rfl
  · rw [helloAtPartnership_partnered (s := u) hs hu hp he, State.restartSilence]
    simp only [State.modifyPart, heardHello_eq, Partnership.confirms, Bool.and_comm seen.isSome]
    rfl
  · rw [← execHelloReceived_eq hl, (execHelloReceived_known hl hu hp).1 hs,
      helloInLost_waits (s := u) he hc]
    rfl

end

namespace Sys2Proof.Machine

/-! ## The departure of a RESTART response (R84, R87, R141, R145, R146, R152, R165, R166, R167) -/

/-- R166: while PARTNERED or LOST a departed response leaves a LEAVE to be sent, and the engine awaits its end. -/
theorem responseDeparted_leaves {s : State} (h : s.part.state = .partnered ∨ s.part.state = .lost) :
    s.responseDeparted = { s with
      part := { s.part with leavePending := s.part.ownEpoch }
      engine := { s.engine with state := .awaitLeave } } := by
  rw [State.responseDeparted, if_pos h]
  rfl

/-- R166: in SILENT or JOINING a departed response applies the restart at once. -/
theorem responseDeparted_applies {s : State} (h : s.part.state = .silent ∨ s.part.state = .joining) :
    s.responseDeparted = s.applyRestart :=
  if_neg (by rcases h with h | h <;> simp [h])

/-- R167: a restart clears the notices that causes have filled and keeps their enable marks. -/
theorem takeMarked_cleared (n : Notices) (mark : Option RequestMark) (causes : List NoticeContent) :
    ({ n.takeMarked mark causes with queue := [], overrun := false } : Notices) =
      { n with queue := [], overrun := false } := by
  unfold Notices.takeMarked
  induction causes generalizing n with
  | nil => rfl
  | cons c rest ih =>
    obtain ⟨h1, h2, h3⟩ := n.take_masks c mark
    rw [List.foldl_cons, ih, h1, h2, h3]

/-- R152, R166: a RESTART response discarded untaken as the partnership has become SILENT. -/
theorem discardReplies_applies {s : State} (hs : s.part.state = .silent)
    (hr : ∃ item ∈ s.engine.linkReply.drop s.link.transmitter.repliesTaken, item.restartResponse = true) :
    ∃ replies, s.discardReplies =
      ({ s with engine := { s.engine with linkReply := replies } } : State).applyRestart := by
  refine ⟨s.engine.linkReply.take s.link.transmitter.repliesTaken, ?_⟩
  rw [State.discardReplies, if_pos (List.any_eq_true.2 hr)]
  exact responseDeparted_applies (.inl hs)

/-- R87: a LEAVE with the partner epoch in PARTNERED or LOST is accepted. -/
theorem execLeaveReceived_accepted {s : State} {epoch : Epoch} {rest : List LinkBlock}
    (hl : s.link.toPartnership = ⟨epoch, .leave⟩ :: rest) (hs : s.part.state = .partnered ∨ s.part.state = .lost)
    (hp : s.part.partnerEpoch = some epoch) : exec .leaveReceived s =
      .next (State.partnerLeft { s with link := { s.link with toPartnership := rest } }).finish := by
  simp only [exec, execLeaveReceived, hl]
  exact congrArg (fun u => Host.Outcome.next (State.finish u)) (if_pos ⟨hs, hp⟩)

/-- R87, R166: a LEAVE that discards the RESTART response applies the restart. -/
theorem partnerLeft_restarted {s : State}
    (hr : ∃ item ∈ s.engine.linkReply.drop s.link.transmitter.repliesTaken, item.restartResponse = true) :
    s.Restarted s.partnerLeft := by
  obtain ⟨flows, pool, notices, e, -, -, all, hn, -⟩ := leave_event.changed s .silent .partnerLeft
  have hx : ∃ replies, s.partnerLeft = State.applyRestart { s with
      part := { s.part.withdrawn with state := .silent }
      flows := flows, pool := pool, notices := notices, link := { s.link with lifecycleOrder := [] }
      engine := { s.engine with linkReply := replies } } := by
    unfold State.partnerLeft
    simp only [e]
    exact discardReplies_applies rfl hr
  obtain ⟨replies, hx⟩ := hx
  rw [hx]
  exact (applyRestart_restarted _).congr rfl rfl (by rw [hn]; exact takeMarked_cleared ..) ⟨rfl, rfl⟩
    ⟨rfl, rfl, rfl, rfl, rfl, rfl⟩ ⟨rfl, rfl, rfl⟩

/-- R84, R166: a join timeout that discards the RESTART response applies the restart. -/
theorem joinExpired_restarted {s : State}
    (hr : ∃ item ∈ s.engine.linkReply.drop s.link.transmitter.repliesTaken, item.restartResponse = true) :
    s.Restarted s.joinExpired := by
  have hx : ∃ replies, s.joinExpired = State.applyRestart { s with
      part := { s.part.withdrawn with state := .silent, deferredJoin := none }
      notices := s.notices.takeMarked s.engine.executing
        (.linkState s.part.state .silent .joinTimeout :: joinCompletion s.part.deferredJoin .timeout)
      engine := { s.engine with linkReply := replies } } := by
    unfold State.joinExpired
    simp only [completeJoin_takes]
    exact discardReplies_applies rfl hr
  obtain ⟨replies, hx⟩ := hx
  rw [hx]
  exact (applyRestart_restarted _).congr rfl rfl (takeMarked_cleared ..) ⟨rfl, rfl⟩
    ⟨rfl, rfl, rfl, rfl, rfl, rfl⟩ ⟨rfl, rfl, rfl⟩

/-! ### RESTART executed (R165, R166) -/

theorem exec_restart_of_takes {s : State} {r : Request} (h : s.Takes r codeRestart) :
    exec .restart s = .next ((s.begin r).executeRestart r).finish := by
  simp [exec, execRestart, headRequest_of_takes h, h.coded]

/-- R158, R165: the work of a RESTART without a body. -/
theorem restartWork_of_empty {r : Request} (h : r.body = []) (s : State) :
    restartWork r s = (.plain .ok, s.modifyEngine fun e => { e with state := .awaitResponse }) :=
  bodyless_of_empty h s _

/-- R165: a response that enters its reply path does not depart yet. -/
theorem executeRestart_answered {s : State} {r : Request} (hb : r.body = [])
    (h : r.origin = .wire ∨ s.part.state ≠ .silent) :
    s.executeRestart r = s.executeRequest r restartWork := by
  refine if_neg ?_
  rw [restartWork_of_empty hb]
  rcases h with h | h <;> simp [State.restartDiscarded, h]

/-- R152, R166: a RESTART by the link in SILENT, whose response is discarded at once, departs as it is answered. -/
theorem executeRestart_discarded {s : State} {r : Request} (hc : r.code = codeRestart) (hb : r.body = [])
    (hl : s.lacksBinding r.source r.code = false) (ho : r.origin = .link) (hs : s.part.state = .silent) :
    s.executeRestart r =
      ((s.modifyEngine fun e => { e with state := .awaitResponse }).answerRequest r (.plain .ok)).responseDeparted := by
  have hd : s.restartDiscarded r (restartWork r s) = true := by
    rw [restartWork_of_empty hb]
    simp [State.restartDiscarded, isRestartResponse, Answer.plain, hc ▸ hl, hc, ho, hs]
  rw [State.executeRestart, if_pos hd, executeRequest_bound hl, restartWork_of_empty hb]

/-- R165: a RESTART whose response enters its reply path is executed like any other request. -/
theorem exec_restart_answered {s : State} {r : Request} (h : s.Takes r codeRestart) (hb : r.body = [])
    (ho : r.origin = .wire ∨ s.part.state ≠ .silent) :
    exec .restart s = s.execute (· == codeRestart) restartWork := by
  rw [exec_restart_of_takes h, executeRestart_answered (s := s.begin r) hb ho,
    execute_of_head (headRequest_of_takes h) (by simp [h.coded])]

/-- R152, R166: a RESTART whose response meets SILENT is applied. -/
theorem exec_restart_discarded {s : State} {r : Request} (h : s.Takes r codeRestart) (hb : r.body = [])
    (ho : r.origin = .link) (hs : s.part.state = .silent) :
    ∃ t, exec .restart s = .next t.finish ∧ s.Restarted t := by
  let u : State := (s.begin r).modifyEngine fun e => { e with state := .awaitResponse }
  obtain ⟨w, replies, e, -, hwr⟩ := answerRequest_eq u r (.plain .ok)
  simp only [ho, Prod.mk.injEq] at hwr
  have hw : w = s.wire := hwr.1
  have hsilent : (u.answerRequest r (.plain .ok)).part.state = .silent := by rw [e]; exact hs
  refine ⟨(u.answerRequest r (.plain .ok)).applyRestart, ?_, ?_⟩
  · rw [exec_restart_of_takes h,
      executeRestart_discarded (s := s.begin r) h.coded hb (bound_of_takes h) ho hs,
      responseDeparted_applies (.inl hsilent)]
  · rw [e]
    exact (applyRestart_restarted _).congr rfl rfl rfl ⟨congrArg _ hw, congrArg _ hw⟩
      ⟨rfl, rfl, rfl, rfl, rfl, rfl⟩ ⟨rfl, rfl, rfl⟩

/-! ### The end of a transmission (R140, R145, R146) -/

theorem exec_wireTransmissionEnd_sending {s : State} {owner : WireOwner} {bytes : List Byte}
    (h : s.wire.transmitter = .sending owner bytes) :
    exec .wireTransmissionEnd s = .next (s.wireEnd owner).wireNext.finish := by
  simp only [exec, execWireTransmissionEnd, h]

/-- R145: the frame that the wired link's going down ends is treated as sent. -/
theorem exec_wiredLinkDown_sending {s : State} {owner : WireOwner} {bytes : List Byte}
    (h : s.wire.transmitter = .sending owner bytes) :
    exec .wiredLinkDown s =
      .next ((s.modifyWire fun w => { w with linkUp := false }).wireEnd owner).wireNext.finish := by
  simp only [exec, execWiredLinkDown, State.wireDown, modifyWire_wire, h]

theorem exec_linkTransmissionEnd_sending {s : State} {owner : LinkOwner} {bytes : List Byte}
    (h : s.link.transmitter = .sending owner bytes) :
    exec .linkTransmissionEnd s = .next (State.linkEnd { s with link := { s.link with
      transmitter := if s.link.slotSignal then .slotOpen else .idle } } owner).finish := by
  simp only [exec, execLinkTransmissionEnd, h]
  rfl

/-- R146, R166: the RESTART response leaves the management egress at the end of its frame. -/
theorem wireEnd_restartResponse {s : State} {frame : Frame} {rest : List ReplyItem}
    (h : s.wire.managementEgress = ⟨frame, true⟩ :: rest) :
    s.wireEnd .management =
      State.responseDeparted { s with wire := { s.wire with managementEgress := rest } } := by
  simp [State.wireEnd, State.modifyWire, h]

theorem wireEnd_restartResponse_leaves {s : State} {frame : Frame} {rest : List ReplyItem}
    (h : s.wire.managementEgress = ⟨frame, true⟩ :: rest)
    (hs : s.part.state = .partnered ∨ s.part.state = .lost) :
    s.wireEnd .management = { s with
      wire := { s.wire with managementEgress := rest }
      part := { s.part with leavePending := s.part.ownEpoch }
      engine := { s.engine with state := .awaitLeave } } :=
  (wireEnd_restartResponse h).trans (responseDeparted_leaves (by exact hs))

theorem wireEnd_restartResponse_applies {s : State} {frame : Frame} {rest : List ReplyItem}
    (h : s.wire.managementEgress = ⟨frame, true⟩ :: rest)
    (hs : s.part.state = .silent ∨ s.part.state = .joining) : s.wireEnd .management = s.applyRestart :=
  (wireEnd_restartResponse h).trans (responseDeparted_applies (by exact hs))

/-- R152, R166: the RESTART response leaves the link reply queue at the end of its block. -/
theorem linkEnd_restartResponse {s : State} {frame : Frame} {rest : List ReplyItem}
    (h : s.engine.linkReply = ⟨frame, true⟩ :: rest) :
    s.linkEnd .linkReply = State.responseDeparted { s with engine := { s.engine with linkReply := rest } } := by
  simp [State.linkEnd, State.modifyEngine, h]

theorem linkEnd_restartResponse_leaves {s : State} {frame : Frame} {rest : List ReplyItem}
    (h : s.engine.linkReply = ⟨frame, true⟩ :: rest) (hs : s.part.state = .partnered ∨ s.part.state = .lost) :
    s.linkEnd .linkReply = { s with
      part := { s.part with leavePending := s.part.ownEpoch }
      engine := { s.engine with linkReply := rest, state := .awaitLeave } } :=
  (linkEnd_restartResponse h).trans (responseDeparted_leaves (by exact hs))

theorem linkEnd_restartResponse_applies {s : State} {frame : Frame} {rest : List ReplyItem}
    (h : s.engine.linkReply = ⟨frame, true⟩ :: rest) (hs : s.part.state = .silent ∨ s.part.state = .joining) :
    s.linkEnd .linkReply = s.applyRestart :=
  (linkEnd_restartResponse h).trans (responseDeparted_applies (by exact hs))

/-- R145: with the wired link down the transmitter becomes IDLE and takes nothing. -/
theorem wireNext_of_down {s : State} (h : s.wire.linkUp = false) :
    s.wireNext = { s with wire := { s.wire with transmitter := .idle } } :=
  congrArg (fun w => { s with wire := w }) ((take_takesNext s.wire).down h)

/-- R145, R147: a restart leaves no frame for the transmitter to take. -/
theorem wireNext_restarted {s t : State} (h : s.Restarted t) :
    t.wireNext = { t with wire := { t.wire with transmitter := .idle } } := by
  obtain ⟨hm, hq⟩ := h.wireQueues
  cases hu : t.wire.linkUp with
  | false => exact wireNext_of_down hu
  | true => exact congrArg (fun w => { t with wire := w }) ((take_takesNext t.wire).nothing hu hm hq)

end Sys2Proof.Machine

section
open Sys2Proof Sys2Proof.Machine

/-- Settles O60: the response answered and departed by either path or discarded untaken, and the end of the LEAVE. -/
theorem restartApplied : Obligations.RestartApplied := by
  refine ⟨fun s r h hb => ⟨fun ho => ?_, fun ho hs => exec_restart_discarded h hb ho hs⟩,
    fun s bytes frame rest ht hm => ⟨fun hs => ⟨⟨_, ?_, take_takesNext _⟩, ?_⟩, fun hs => ?_⟩,
    fun s bytes frame rest ht hq => ⟨fun hs => ?_, fun hs => ⟨_, ?_, applyRestart_restarted _⟩⟩,
    fun s he hr => ⟨fun epoch rest hl hs hp => ?_, fun hs ht => ?_⟩,
    fun s bytes ht => ⟨_, exec_linkTransmissionEnd_sending ht, applyRestart_restarted _⟩⟩
  · obtain ⟨t, hx, hans, hbind, hst, hn, hrest⟩ := execute_effect h (exec_restart_answered h hb ho) rfl
      (restartWork_of_empty hb _) (by simp [begin_eq]) rfl rfl
    refine ⟨t, hx, hans, hst, hbind, hn.trans (clearMarks_unmarked h.unmarked _), ?_⟩
    refine State.Unchanged.trans (l := [.engine]) ?_ hrest fun q hq => by simp_all
    constructor <;> simp [begin_eq]
  · rw [exec_wireTransmissionEnd_sending ht, wireEnd_restartResponse_leaves hm hs]
    rfl
  · rw [exec_wiredLinkDown_sending ht, wireEnd_restartResponse_leaves (by exact hm) (by exact hs),
      wireNext_of_down (by rfl)]
    rfl
  · refine ⟨s.applyRestart, applyRestart_restarted s, ?_, ?_⟩
    · rw [exec_wireTransmissionEnd_sending ht, wireEnd_restartResponse_applies hm hs,
        wireNext_restarted (applyRestart_restarted s)]
    · rw [exec_wiredLinkDown_sending ht, wireEnd_restartResponse_applies (by exact hm) (by exact hs),
        wireNext_restarted (applyRestart_restarted _)]
      rfl
  · rw [exec_linkTransmissionEnd_sending ht, linkEnd_restartResponse_leaves (by exact hq) (by exact hs)]
  · rw [exec_linkTransmissionEnd_sending ht, linkEnd_restartResponse_applies (by exact hq) (by exact hs)]
  · exact ⟨_, execLeaveReceived_accepted hl hs hp, partnerLeft_restarted hr⟩
  · exact ⟨s.joinExpired, by rw [exec, execJoinTimerExpiry, if_pos ⟨hs, by simp [ht]⟩], joinExpired_restarted hr⟩

end

namespace Sys2Proof.Machine

/-! ## The counts of the pool (5.1, R92) -/

/-- A sum over a fixed table of which one item has changed. -/
theorem sum_finRange_add {n : Nat} {g h : Fin n → Nat} (i : Fin n) (hne : ∀ k, k ≠ i → g k = h k) :
    ((List.finRange n).map g).sum + h i = ((List.finRange n).map h).sum + g i := by
  have hrest : ∑ k ∈ Finset.univ.erase i, g k = ∑ k ∈ Finset.univ.erase i, h k :=
    Finset.sum_congr rfl fun k hk => hne k (Finset.ne_of_mem_erase hk)
  rw [← Fin.sum_univ_def, ← Fin.sum_univ_def, ← Finset.add_sum_erase _ g (Finset.mem_univ i),
    ← Finset.add_sum_erase _ h (Finset.mem_univ i), hrest]
  omega

theorem unusedReservation_le (p : Pool) (f : FlowId) : p.unusedReservation f ≤ p.totalUnused :=
  List.le_sum_of_mem (List.mem_map_of_mem (List.mem_finRange f))

/-! ## The pool laws through one change (5.2, 5.3) -/

/-- The pool laws read the counts of the pool, the bulk cap, and for each flow its cap, its reserve and whether it
is in use. -/
theorem State.PoolLaws.congr {s t : State} (h : s.PoolLaws) (hp : ∃ armed, t.pool = { s.pool with lowArmed := armed })
    (hb : t.params.bulkCap = s.params.bulkCap) (hprof : ∀ f, t.profile f = s.profile f)
    (hu : ∀ f, (t.flow f).inUse = (s.flow f).inUse) : t.PoolLaws := by
  obtain ⟨armed, hp⟩ := hp
  constructor
  · rw [hp]; exact h.conserved
  · rw [hp]; exact h.covered
  · intro f; rw [State.held, hp, hprof]; exact h.capped f
  · rw [hp, hb]; exact h.bulkCapped
  · intro f; rw [hp, hu, hprof]; exact h.reserved f

/-- A change of one flow's context that leaves it in use or not. -/
theorem State.PoolLaws.modifyFlow {s : State} (h : s.PoolLaws) {f : FlowId} {g : Flow → Flow}
    (hu : (g (s.flow f)).inUse = (s.flow f).inUse) : (s.modifyFlow f g).PoolLaws := by
  refine h.congr ⟨s.pool.lowArmed, rfl⟩ rfl (fun _ => rfl) fun k => ?_
  rw [flow_modifyFlow]
  split
  · next hk => exact hk ▸ hu
  · rfl

/-- A change of one flow's account, its reservation or whether it is in use. -/
theorem State.PoolLaws.atFlow {s t : State} (h : s.PoolLaws) {f : FlowId}
    (hheld : ∀ k, k ≠ f → t.held k = s.held k)
    (hres : ∀ k, k ≠ f → readAt t.pool.reservation k = readAt s.pool.reservation k)
    (huse : ∀ k, k ≠ f → (t.flow k).inUse = (s.flow k).inUse) (hprof : ∀ k, t.profile k = s.profile k)
    (hbulk : t.pool.bulkHeld = s.pool.bulkHeld) (hcap : t.params.bulkCap = s.params.bulkCap)
    (hconserved : t.held f + t.pool.free = s.held f + s.pool.free)
    (hcovered : s.pool.totalUnused + t.pool.unusedReservation f ≤ t.pool.free + s.pool.unusedReservation f)
    (hcapped : t.held f ≤ (s.profile f).cap)
    (hreserved : readAt t.pool.reservation f = if (t.flow f).inUse then (s.profile f).reserve else 0) :
    t.PoolLaws := by
  have hsum : t.pool.heldByFlows + s.held f = s.pool.heldByFlows + t.held f := sum_finRange_add f hheld
  have hunused : t.pool.totalUnused + s.pool.unusedReservation f =
      s.pool.totalUnused + t.pool.unusedReservation f :=
    sum_finRange_add f fun k hk => congrArg₂ (· - ·) (hres k hk) (hheld k hk)
  constructor
  · have := h.conserved
    omega
  · omega
  · intro k
    rw [hprof]
    by_cases hk : k = f
    · exact hk ▸ hcapped
    · rw [hheld k hk]; exact h.capped k
  · rw [hbulk, hcap]; exact h.bulkCapped
  · intro k
    rw [hprof]
    by_cases hk : k = f
    · exact hk ▸ hreserved
    · rw [hres k hk, huse k hk]; exact h.reserved k

/-- R96: a buffer granted to a flow. -/
theorem State.PoolLaws.grantFlow {s t : State} (h : s.PoolLaws) {f : FlowId} (e : s.grantFlow f = some t) :
    t.PoolLaws := by
  obtain ⟨hg, armed, n, rfl⟩ := grantFlow_some e
  simp only [Pool.grantsFlow, Bool.and_eq_true, Bool.or_eq_true, decide_eq_true_iff] at hg
  obtain ⟨hcap, hroom⟩ := hg
  unfold Pool.sharedFree at hroom
  have hcov := h.covered
  have hle : readAt s.pool.reservation f - readAt s.pool.held f ≤ s.pool.totalUnused := unusedReservation_le s.pool f
  have hheld : readAt (s.pool.chargeFlow f).held f = readAt s.pool.held f + 1 := readAt_writeAt_same _ _ _
  refine h.atFlow (f := f) (fun k hk => readAt_writeAt_ne _ _ (Ne.symm hk)) (fun _ _ => rfl) (fun _ _ => rfl)
    (fun _ => rfl) rfl rfl ?_ ?_ ?_ (h.reserved f)
  · change readAt (s.pool.chargeFlow f).held f + (s.pool.free - 1) = readAt s.pool.held f + s.pool.free
    omega
  · change s.pool.totalUnused + (readAt s.pool.reservation f - readAt (s.pool.chargeFlow f).held f) ≤
      s.pool.free - 1 + (readAt s.pool.reservation f - readAt s.pool.held f)
    omega
  · change readAt (s.pool.chargeFlow f).held f ≤ (s.profile f).cap
    omega

theorem returnFlow_held (p : Pool) (f : FlowId) (n : Nat) :
    readAt (p.returnFlow f n).held f = readAt p.held f - min n (readAt p.held f) := readAt_writeAt_same _ _ _

/-- R98: buffers of a flow returned. -/
theorem State.PoolLaws.releaseFlow {s : State} (h : s.PoolLaws) (f : FlowId) (n : Nat) :
    (s.releaseFlow f n).PoolLaws := by
  obtain ⟨armed, notices, e⟩ := releaseFlow_eq s f n
  rw [e]
  have hcov := h.covered
  have hcap : readAt s.pool.held f ≤ (s.profile f).cap := h.capped f
  have hheld := returnFlow_held s.pool f n
  refine h.atFlow (f := f) (fun k hk => readAt_writeAt_ne _ _ (Ne.symm hk)) (fun _ _ => rfl) (fun _ _ => rfl)
    (fun _ => rfl) rfl rfl ?_ ?_ ?_ (h.reserved f)
  · change readAt (s.pool.returnFlow f n).held f + (s.pool.free + min n (readAt s.pool.held f)) =
      readAt s.pool.held f + s.pool.free
    omega
  · change s.pool.totalUnused + (readAt s.pool.reservation f - readAt (s.pool.returnFlow f n).held f) ≤
      s.pool.free + min n (readAt s.pool.held f) + (readAt s.pool.reservation f - readAt s.pool.held f)
    omega
  · change readAt (s.pool.returnFlow f n).held f ≤ (s.profile f).cap
    omega

/-- R51, R95: an entry to CLOSED or FAILED. -/
theorem State.PoolLaws.endFlow {s : State} (h : s.PoolLaws) (f : FlowId) {new : FlowState}
    (hn : new = .closed ∨ new = .failed) (cause : FlowCause) (failure : Option FailureCause) (keep : Bool)
    (o : DeferredCode → Completion × Option Detail) : (s.endFlow f new cause failure keep o).PoolLaws := by
  obtain ⟨armed, notices, e⟩ := endFlow_eq s f new cause failure keep o
  rw [e]
  have hcov := h.covered
  have hcap : readAt s.pool.held f ≤ (s.profile f).cap := h.capped f
  have hheld := returnFlow_held s.pool f (s.flow f).collectedBuffers
  have huse : ((s.flow f).ended new failure keep).inUse = false := (Flow.inUse_eq_false_iff _).2 hn
  refine h.atFlow (f := f) (fun k hk => readAt_writeAt_ne _ _ (Ne.symm hk))
    (fun k hk => readAt_writeAt_ne _ _ (Ne.symm hk))
    (fun k hk => congrArg Flow.inUse (readAt_writeAt_ne _ _ (Ne.symm hk))) (fun _ => rfl) rfl rfl ?_ ?_ ?_ ?_
  · change readAt (s.pool.returnFlow f _).held f + (s.pool.free + min _ (readAt s.pool.held f)) =
      readAt s.pool.held f + s.pool.free
    omega
  · change s.pool.totalUnused + (readAt (writeAt s.pool.reservation f 0) f - _) ≤
      s.pool.free + min _ (readAt s.pool.held f) + (readAt s.pool.reservation f - readAt s.pool.held f)
    rw [readAt_writeAt_same]
    omega
  · change readAt (s.pool.returnFlow f _).held f ≤ (s.profile f).cap
    omega
  · change readAt (writeAt s.pool.reservation f 0) f =
      if (readAt (writeAt s.flows f ((s.flow f).ended new failure keep)) f).inUse then _ else 0
    simp [huse]

/-- R94: a flow that was not in use is in use, with its reservation made. -/
theorem State.PoolLaws.prepareOpening {s u : State} (h : s.PoolLaws) {f : FlowId}
    (e : s.prepareOpening f = some u) (hs : (s.flow f).inUse = false) {g : Flow → Flow}
    (hg : ∀ fl, (g fl).inUse = true) : (u.modifyFlow f g).PoolLaws := by
  obtain ⟨v, hv, rfl⟩ := Option.map_eq_some_iff.1 e
  obtain ⟨hroom, armed, notices, rfl⟩ := reserveFlow_some hv
  have hcov := h.covered
  have hnone : readAt s.pool.reservation f = 0 := by rw [h.reserved f, hs]; rfl
  rw [modifyFlow_modifyFlow]
  refine h.atFlow (f := f) (fun _ _ => rfl) (fun k hk => readAt_writeAt_ne _ _ (Ne.symm hk))
    (fun k hk => congrArg Flow.inUse (readAt_writeAt_ne _ _ (Ne.symm hk))) (fun _ => rfl) rfl rfl rfl ?_
    (h.capped f) ?_
  · change s.pool.totalUnused + (readAt (writeAt s.pool.reservation f _) f - readAt s.pool.held f) ≤
      s.pool.free + (readAt s.pool.reservation f - readAt s.pool.held f)
    rw [readAt_writeAt_same]
    unfold Pool.sharedFree at hroom
    omega
  · rw [flow_modifyFlow_same, hg]
    exact readAt_writeAt_same _ _ _

/-- A change of the bulk account. -/
theorem State.PoolLaws.atBulk {s t : State} (h : s.PoolLaws) (hheld : t.pool.held = s.pool.held)
    (hres : t.pool.reservation = s.pool.reservation) (hflows : t.flows = s.flows) (htables : t.tables = s.tables)
    (hconserved : t.pool.bulkHeld + t.pool.free = s.pool.bulkHeld + s.pool.free)
    (hcovered : s.pool.totalUnused ≤ t.pool.free) (hcapped : t.pool.bulkHeld ≤ t.params.bulkCap) : t.PoolLaws := by
  have hunused : t.pool.totalUnused = s.pool.totalUnused :=
    congrArg List.sum (List.map_congr_left fun k _ => by simp only [Pool.unusedReservation, hheld, hres])
  have hsum : t.pool.heldByFlows = s.pool.heldByFlows := by simp only [Pool.heldByFlows, hheld]
  have hprof : ∀ f, t.profile f = s.profile f := fun f => by simp only [State.profile, htables]
  have hcons := h.conserved
  constructor
  · omega
  · omega
  · intro f; rw [State.held, hheld, hprof]; exact h.capped f
  · exact hcapped
  · intro f; rw [hres, hprof, State.flow, hflows]; exact h.reserved f

/-- R97: a buffer granted to the bulk account. -/
theorem State.PoolLaws.grantBulk {s t : State} (h : s.PoolLaws) (e : s.grantBulk = some t) : t.PoolLaws := by
  obtain ⟨hg, armed, n, rfl⟩ := grantBulk_some e
  simp only [Pool.grantsBulk, Bool.and_eq_true, decide_eq_true_iff] at hg
  unfold Pool.sharedFree at hg
  refine h.atBulk rfl rfl rfl rfl ?_ ?_ ?_
  · change s.pool.bulkHeld + 1 + (s.pool.free - 1) = _
    omega
  · change _ ≤ s.pool.free - 1
    omega
  · change s.pool.bulkHeld + 1 ≤ s.params.bulkCap
    omega

/-- R98: a buffer of the bulk account returned. -/
theorem State.PoolLaws.releaseBulk {s : State} (h : s.PoolLaws) : s.releaseBulk.PoolLaws := by
  obtain ⟨armed, n, e⟩ := releaseBulk_eq s
  have hcov := h.covered
  have hcap := h.bulkCapped
  rw [e]
  refine h.atBulk rfl rfl rfl rfl ?_ ?_ ?_
  · change s.pool.bulkHeld - 1 + (s.pool.free + min 1 s.pool.bulkHeld) = _
    omega
  · change _ ≤ s.pool.free + min 1 s.pool.bulkHeld
    omega
  · change s.pool.bulkHeld - 1 ≤ s.params.bulkCap
    omega

theorem State.PoolLaws.releaseAccount {s : State} (h : s.PoolLaws) (a : Account) : (s.releaseAccount a).PoolLaws := by
  cases a with
  | flow f => exact h.releaseFlow f 1
  | bulk => exact h.releaseBulk

/-- A pool with no buffer charged and no flow in use. -/
theorem poolLaws_of_initial {s : State} (hp : s.pool = Pool.initial) (hu : ∀ f, (s.flow f).inUse = false) :
    s.PoolLaws := by
  constructor
  · rw [hp]; decide
  · rw [hp]; decide
  · intro f; simp [State.held, hp, Pool.initial]
  · simp [hp, Pool.initial]
  · intro f; simp [hp, hu, Pool.initial]

end Sys2Proof.Machine

namespace Sys2Proof.Machine

/-! ## The frames of an account on the wire (5.2, R145) -/

/-- The frames of an account that wait in the class queues. -/
def WirePort.queuedOf (w : WirePort) (a : Account) : Nat :=
  ((List.finRange 4).map fun c => (readAt w.classQueues c).countP (·.account == a)).sum

/-- The frame in transmission, where it is charged to an account. -/
def WireTransmitter.framesOf (a : Account) : WireTransmitter → Nat
  | .sending (.account b) _ => if b = a then 1 else 0
  | .sending .management _ | .sending .abandoned _ | .idle => 0

theorem egressOf_eq (w : WirePort) (a : Account) : w.egressOf a = w.queuedOf a + w.transmitter.framesOf a := by
  unfold WirePort.egressOf WireTransmitter.framesOf WirePort.queuedOf
  congr 1

/-- One class queue changed. -/
theorem queuedOf_writeAt (w : WirePort) (cls : PortClass) (q : List WireItem) (a : Account) :
    WirePort.queuedOf { w with classQueues := writeAt w.classQueues cls q } a +
        (readAt w.classQueues cls).countP (·.account == a) =
      w.queuedOf a + q.countP (·.account == a) := by
  have h := sum_finRange_add (h := fun c => (readAt w.classQueues c).countP (·.account == a))
    (g := fun c => (readAt (writeAt w.classQueues cls q) c).countP (·.account == a)) cls
    fun k hk => by rw [readAt_writeAt_ne _ _ (Ne.symm hk)]
  rwa [readAt_writeAt_same] at h

/-- R37, R114: frames that join a class queue. -/
theorem joined_egressOf (w : WirePort) (cls : PortClass) (items : List WireItem) (a : Account) :
    (w.joined cls items).egressOf a = w.egressOf a + items.countP (·.account == a) := by
  have h := queuedOf_writeAt w cls (readAt w.classQueues cls ++ items) a
  rw [List.countP_append] at h
  rw [egressOf_eq, egressOf_eq]
  change WirePort.queuedOf { w with classQueues := _ } a + w.transmitter.framesOf a = _
  omega

/-- R145: a frame taken from a class queue by an IDLE transmitter is in transmission. -/
theorem takeClass_egressOf {w : WirePort} (h : w.transmitter = .idle) (classes : List PortClass) (a : Account) :
    (w.takeClass classes).egressOf a = w.egressOf a := by
  induction classes with
  | nil => rfl
  | cons cls lower ih =>
    unfold WirePort.takeClass
    split
    · next item rest hq =>
      have hw := queuedOf_writeAt w cls rest a
      rw [hq, List.countP_cons] at hw
      rw [egressOf_eq, egressOf_eq, h]
      change WirePort.queuedOf { w with classQueues := _ } a + (if item.account = a then 1 else 0) = _ + 0
      simp only [beq_iff_eq] at hw
      omega
    · exact ih

theorem take_egressOf (w : WirePort) (a : Account) : w.take.egressOf a = w.egressOf a := by
  unfold WirePort.take
  split
  · rfl
  · next hi =>
    split
    · split
      · rw [egressOf_eq, egressOf_eq, hi]; rfl
      · exact takeClass_egressOf hi _ a
    · rfl

/-- R145: the transmitter becomes IDLE, and takes the next frame if it may. -/
theorem wireNext_egressOf (s : State) (a : Account) : s.wireNext.wire.egressOf a = s.wire.queuedOf a := by
  change ({ s.wire with transmitter := .idle } : WirePort).take.egressOf a = _
  rw [take_egressOf, egressOf_eq]
  rfl

/-! ## What is charged to an account beyond the frames stored for it (R92) -/

/-- The buffers charged to an account. -/
def State.charged (s : State) : Account → Nat
  | .flow f => s.held f
  | .bulk => s.pool.bulkHeld

/-- The frames that the part stores for an account beside the wire egress. -/
def State.kept (s : State) : Account → Nat
  | .flow f => (s.flow f).collectedBuffers
  | .bulk => s.link.bulkFrames

/-- The buffers charged to an account less the frames stored for it. -/
def State.spare (s : State) (a : Account) : Int := s.charged a - (s.kept a + s.wire.egressOf a)

/-- R133, R139: a grant is in transit only while the slot is open. -/
def LinkPort.grantInSlot (l : LinkPort) : Prop := l.grant.isSome = true → l.transmitter = .slotOpen

theorem buffersAccounted_iff (s : State) :
    s.BuffersAccounted ↔ s.link.grantInSlot ∧ ∀ a, s.spare a = 0 := by
  unfold State.spare
  constructor
  · intro h
    refine ⟨h.slot, fun a => ?_⟩
    cases a with
    | flow f => have := h.flows f; simp only [State.charged, State.kept]; omega
    | bulk => have := h.bulk; simp only [State.charged, State.kept]; omega
  · rintro ⟨hs, h⟩
    refine ⟨hs, fun f => ?_, ?_⟩
    · have := h (.flow f); simp only [State.charged, State.kept] at this; omega
    · have := h .bulk; simp only [State.charged, State.kept] at this; omega

theorem spare_eq_of {s t : State} {a : Account} (hc : t.charged a = s.charged a) (hk : t.kept a = s.kept a)
    (he : t.wire.egressOf a = s.wire.egressOf a) : t.spare a = s.spare a := by
  simp only [State.spare, hc, hk, he]

/-- A change of one flow's context. -/
theorem spare_modifyFlow (s : State) (f : FlowId) (g : Flow → Flow) (a : Account) :
    (s.modifyFlow f g).spare a = s.spare a +
      if a = .flow f then ((s.flow f).collectedBuffers : Int) - (g (s.flow f)).collectedBuffers else 0 := by
  have hc : (s.modifyFlow f g).charged a = s.charged a := by cases a <;> rfl
  have hk : ((s.modifyFlow f g).kept a : Int) = s.kept a -
      if a = .flow f then ((s.flow f).collectedBuffers : Int) - (g (s.flow f)).collectedBuffers else 0 := by
    cases a with
    | bulk => simp [State.kept]
    | flow k =>
      simp only [State.kept, flow_modifyFlow, Account.flow.injEq]
      split
      · next h => subst h; simp
      · next h => simp [Ne.symm h]
  simp only [State.spare, hc, hk, modifyFlow_wire]
  omega

/-- R37, R114: a frame placed on the wire egress. -/
theorem spare_placeClass (s : State) (cls : PortClass) (item : WireItem) (a : Account) :
    (s.placeClass cls item).spare a = s.spare a - if item.account = a then 1 else 0 := by
  have he : (s.placeClass cls item).wire.egressOf a = s.wire.egressOf a + if item.account = a then 1 else 0 := by
    change (s.wire.joined cls [item]).take.egressOf a = _
    rw [take_egressOf, joined_egressOf, List.countP_singleton]
    simp only [beq_iff_eq]
  have hc : (s.placeClass cls item).charged a = s.charged a := by cases a <;> rfl
  have hk : (s.placeClass cls item).kept a = s.kept a := by cases a <;> rfl
  simp only [State.spare, hc, hk, he]
  split <;> omega

theorem spare_countFlow (s : State) (f : FlowId) (g : FlowCounters → FlowCounters) (a : Account) :
    (s.countFlow f g).spare a = s.spare a := by cases a <;> rfl

theorem spare_deliver (s : State) (f : FlowId) (frame : Frame) (a : Account) :
    (s.deliver f frame).spare a = s.spare a - if a = .flow f then 1 else 0 := by
  rw [State.deliver, spare_countFlow, spare_placeClass]
  simp only [eq_comm]

theorem spare_deliverAll (s : State) (f : FlowId) (frames : List Frame) (a : Account) :
    (s.deliverAll f frames).spare a = s.spare a - if a = .flow f then (frames.length : Int) else 0 := by
  unfold State.deliverAll
  induction frames generalizing s with
  | nil => simp
  | cons frame rest ih =>
    rw [List.foldl_cons, ih, spare_deliver, List.length_cons]
    split <;> omega

/-- A change of the counts of one flow's account. -/
theorem spare_held {s t : State} {f : FlowId} {x : Nat} (hh : t.pool.held = writeAt s.pool.held f x)
    (hb : t.pool.bulkHeld = s.pool.bulkHeld) (hf : t.flows = s.flows) (hl : t.link = s.link)
    (hw : t.wire = s.wire) (a : Account) :
    t.spare a = s.spare a + if a = .flow f then (x : Int) - s.held f else 0 := by
  have hk : t.kept a = s.kept a := by cases a <;> simp only [State.kept, State.flow, hf, hl]
  simp only [State.spare, hk, hw]
  cases a with
  | bulk => simp [State.charged, hb]
  | flow k =>
    simp only [State.charged, State.held, hh, readAt_writeAt, Account.flow.injEq]
    by_cases h : k = f
    · subst h; simp
    · simp [h, Ne.symm h]

/-- A change of the count of the bulk account. -/
theorem spare_bulkHeld {s t : State} (hh : t.pool.held = s.pool.held) (hf : t.flows = s.flows)
    (hl : t.link = s.link) (hw : t.wire = s.wire) (a : Account) :
    t.spare a = s.spare a + if a = .bulk then (t.pool.bulkHeld : Int) - s.pool.bulkHeld else 0 := by
  have hk : t.kept a = s.kept a := by cases a <;> simp only [State.kept, State.flow, hf, hl]
  simp only [State.spare, hk, hw]
  cases a with
  | flow k => simp [State.charged, State.held, hh]
  | bulk => simp [State.charged]

/-- R96. -/
theorem spare_grantFlow {s t : State} {f : FlowId} (h : s.grantFlow f = some t) (a : Account) :
    t.spare a = s.spare a + if a = .flow f then 1 else 0 := by
  obtain ⟨-, armed, n, e⟩ := grantFlow_some h
  have key := spare_held (s := s) (t := t) (f := f) (x := readAt s.pool.held f + 1) (by rw [e]; rfl) (by rw [e]; rfl)
    (by rw [e]) (by rw [e]) (by rw [e]) a
  simpa [State.held] using key

/-- R97. -/
theorem spare_grantBulk {s t : State} (h : s.grantBulk = some t) (a : Account) :
    t.spare a = s.spare a + if a = .bulk then 1 else 0 := by
  obtain ⟨-, armed, n, e⟩ := grantBulk_some h
  have key := spare_bulkHeld (s := s) (t := t) (by rw [e]) (by rw [e]) (by rw [e]) (by rw [e]) a
  have hb : t.pool.bulkHeld = s.pool.bulkHeld + 1 := by rw [e]
  rw [key, hb]
  simp

/-- R98: buffers that the account holds. -/
theorem spare_releaseFlow {s : State} {f : FlowId} {n : Nat} (h : n ≤ s.held f) (a : Account) :
    (s.releaseFlow f n).spare a = s.spare a - if a = .flow f then (n : Int) else 0 := by
  obtain ⟨armed, notices, e⟩ := releaseFlow_eq s f n
  have h' : n ≤ readAt s.pool.held f := h
  have key := spare_held (s := s) (t := s.releaseFlow f n) (f := f) (x := readAt s.pool.held f - n)
    (by rw [e, ← min_eq_left h']; simp [Pool.returnFlow, h']) (by rw [e]; rfl) (by rw [e]) (by rw [e]) (by rw [e]) a
  rw [key, State.held]
  split <;> omega

theorem spare_releaseBulk {s : State} (h : 1 ≤ s.pool.bulkHeld) (a : Account) :
    s.releaseBulk.spare a = s.spare a - if a = .bulk then 1 else 0 := by
  obtain ⟨armed, notices, e⟩ := releaseBulk_eq s
  have key := spare_bulkHeld (s := s) (t := s.releaseBulk) (by rw [e]) (by rw [e]) (by rw [e]) (by rw [e]) a
  have hb : s.releaseBulk.pool.bulkHeld = s.pool.bulkHeld - 1 := by rw [e]
  rw [key, hb]
  split <;> omega

theorem spare_releaseAccount {s : State} {b : Account} (h : 1 ≤ s.charged b) (a : Account) :
    (s.releaseAccount b).spare a = s.spare a - if a = b then 1 else 0 := by
  cases b with
  | flow f => exact spare_releaseFlow h a
  | bulk => exact spare_releaseBulk h a

/-- An account that is charged for what is stored holds at least each part of it. -/
theorem charged_of_spare {s : State} {a : Account} (h : s.spare a = 0) :
    s.charged a = s.kept a + s.wire.egressOf a := by
  unfold State.spare at h
  omega

end Sys2Proof.Machine

namespace Sys2Proof.Machine

/-! ## What keeps the laws of the buffers (5.2, 5.3) -/

/-- From s to t the pool laws are kept, and under a premise on the state in which the command began the accounts
still count what is stored. -/
structure KeepsBuffers (premise : Prop) (s t : State) : Prop where
  pool : s.PoolLaws → t.PoolLaws
  accounts : premise → s.BuffersAccounted → t.BuffersAccounted

variable {c : Prop}

theorem KeepsBuffers.refl (s : State) : KeepsBuffers c s s := ⟨id, fun _ => id⟩

theorem KeepsBuffers.trans {s u t : State} (h : KeepsBuffers c s u) (h' : KeepsBuffers c u t) :
    KeepsBuffers c s t :=
  ⟨h'.pool ∘ h.pool, fun hc => h'.accounts hc ∘ h.accounts hc⟩

/-- The account of each buffer balances again at the end of a change. -/
theorem keeps_of_spare {s t : State} (hp : s.PoolLaws → t.PoolLaws)
    (hslot : c → s.link.grantInSlot → t.link.grantInSlot)
    (hspare : c → (∀ a, s.spare a = 0) → ∀ a, t.spare a = 0) : KeepsBuffers c s t := by
  refine ⟨hp, fun hc h => ?_⟩
  obtain ⟨hs, hz⟩ := (buffersAccounted_iff s).1 h
  exact (buffersAccounted_iff t).2 ⟨hslot hc hs, hspare hc hz⟩

/-- All that the laws of the buffers read is the same. -/
structure State.SameBuffers (s t : State) : Prop where
  pool : ∃ armed, t.pool = { s.pool with lowArmed := armed }
  bulkCap : t.params.bulkCap = s.params.bulkCap
  profile : ∀ f, t.profile f = s.profile f
  inUse : ∀ f, (t.flow f).inUse = (s.flow f).inUse
  collected : ∀ f, (t.flow f).collectedBuffers = (s.flow f).collectedBuffers
  egress : ∀ a, t.wire.egressOf a = s.wire.egressOf a
  bulkFrames : t.link.bulkFrames = s.link.bulkFrames
  slot : s.link.grantInSlot → t.link.grantInSlot

theorem State.SameBuffers.keeps {s t : State} (h : s.SameBuffers t) : KeepsBuffers c s t := by
  refine keeps_of_spare (fun hp => hp.congr h.pool h.bulkCap h.profile h.inUse) (fun _ => h.slot) fun _ hz a => ?_
  obtain ⟨armed, hp⟩ := h.pool
  rw [spare_eq_of (s := s) ?_ ?_ (h.egress a), hz a]
  · cases a <;> simp only [State.charged, State.held, hp]
  · cases a with
    | flow f => exact h.collected f
    | bulk => exact h.bulkFrames

/-- A change beside the flows, the pool, the ports, the tables and the bulk cap. -/
theorem keeps_of_eq {s t : State} (h : t.flows = s.flows ∧ t.pool = s.pool ∧ t.wire = s.wire ∧ t.link = s.link ∧
    t.tables = s.tables ∧ t.params.bulkCap = s.params.bulkCap) : KeepsBuffers c s t := by
  obtain ⟨hf, hp, hw, hl, ht, hb⟩ := h
  exact State.SameBuffers.keeps {
    pool := ⟨s.pool.lowArmed, hp⟩
    bulkCap := hb
    profile := fun f => by simp only [State.profile, ht]
    inUse := fun f => by simp only [State.flow, hf]
    collected := fun f => by simp only [State.flow, hf]
    egress := fun a => by rw [hw]
    bulkFrames := by rw [hl]
    slot := fun h => hl ▸ h }

theorem keeps_modifyPart (s : State) (g : Partnership → Partnership) : KeepsBuffers c s (s.modifyPart g) :=
  keeps_of_eq ⟨rfl, rfl, rfl, rfl, rfl, rfl⟩

theorem keeps_modifyEngine (s : State) (g : Engine → Engine) : KeepsBuffers c s (s.modifyEngine g) :=
  keeps_of_eq ⟨rfl, rfl, rfl, rfl, rfl, rfl⟩

theorem keeps_modifyNotices (s : State) (g : Notices → Notices) : KeepsBuffers c s (s.modifyNotices g) :=
  keeps_of_eq ⟨rfl, rfl, rfl, rfl, rfl, rfl⟩

theorem keeps_raiseCause (s : State) (n : NoticeContent) : KeepsBuffers c s (s.raiseCause n) :=
  keeps_modifyNotices s _

theorem keeps_countFlow (s : State) (f : FlowId) (g : FlowCounters → FlowCounters) :
    KeepsBuffers c s (s.countFlow f g) := keeps_of_eq ⟨rfl, rfl, rfl, rfl, rfl, rfl⟩

theorem keeps_countDevice (s : State) (g : DeviceCounters → DeviceCounters) :
    KeepsBuffers c s (s.countDevice g) := keeps_of_eq ⟨rfl, rfl, rfl, rfl, rfl, rfl⟩

theorem keeps_complete (s : State) (d : Option Deferred) (o : DeferredCode → Completion × Option Detail) :
    KeepsBuffers c s (s.complete d o) := by
  obtain ⟨n, e⟩ := complete_eq s d o
  rw [e]
  exact keeps_of_eq ⟨rfl, rfl, rfl, rfl, rfl, rfl⟩

theorem keeps_changeLinkState (s : State) (new : LinkState) (cause : LinkCause) :
    KeepsBuffers c s (s.changeLinkState new cause) := keeps_of_eq ⟨rfl, rfl, rfl, rfl, rfl, rfl⟩

theorem keeps_completeJoin (s : State) (o : Completion) : KeepsBuffers c s (s.completeJoin o) := by
  obtain ⟨n, e⟩ := completeJoin_eq s o
  rw [e]
  exact keeps_of_eq ⟨rfl, rfl, rfl, rfl, rfl, rfl⟩

/-- R88: a block that its destination takes or that is stale. -/
theorem keeps_ifAccepted {s : State} {epoch : Epoch} {d : State → State}
    (hd : KeepsBuffers c s.restartSilence (d s.restartSilence)) : KeepsBuffers c s (s.ifAccepted epoch d) := by
  unfold State.ifAccepted
  split
  · exact (keeps_modifyPart s _).trans hd
  · exact keeps_countDevice s _

/-- A change of the link port that leaves the bulk frames, and a grant only in an open slot. -/
theorem keeps_modifyLink {s : State} {g : LinkPort → LinkPort} (hb : (g s.link).bulkFrames = s.link.bulkFrames)
    (hs : s.link.grantInSlot → (g s.link).grantInSlot) : KeepsBuffers c s (s.modifyLink g) :=
  State.SameBuffers.keeps ⟨⟨_, rfl⟩, rfl, fun _ => rfl, fun _ => rfl, fun _ => rfl, fun _ => rfl, hb, hs⟩

/-- A change of the wire port that leaves every account's frames. -/
theorem keeps_modifyWire {s : State} {g : WirePort → WirePort}
    (he : ∀ a, (g s.wire).egressOf a = s.wire.egressOf a) : KeepsBuffers c s (s.modifyWire g) :=
  State.SameBuffers.keeps ⟨⟨_, rfl⟩, rfl, fun _ => rfl, fun _ => rfl, fun _ => rfl, he, rfl, id⟩

/-- A change of one flow that leaves it in use or not, and its frames. -/
theorem keeps_modifyFlow {s : State} {f : FlowId} {g : Flow → Flow}
    (hu : (g (s.flow f)).inUse = (s.flow f).inUse)
    (hc : (g (s.flow f)).collectedBuffers = (s.flow f).collectedBuffers) : KeepsBuffers c s (s.modifyFlow f g) := by
  refine State.SameBuffers.keeps ⟨⟨_, rfl⟩, rfl, fun _ => rfl, fun k => ?_, fun k => ?_, fun _ => rfl, rfl, id⟩
  all_goals
    rw [flow_modifyFlow]
    split
    · next h => subst h; assumption
    · rfl

/-! ## The replies and the end of a happening (R152, R174, R133) -/

theorem keeps_placeReply (s : State) (origin : Origin) (item : ReplyItem) :
    KeepsBuffers c s (s.placeReply origin item) := by
  cases origin with
  | wire =>
    exact keeps_modifyWire (g := fun w => ({ w with managementEgress := w.managementEgress ++ [item] } : WirePort).take)
      fun a => take_egressOf _ a
  | link =>
    unfold State.placeReply
    simp only
    split
    · exact .refl s
    · exact keeps_modifyEngine s _

theorem keeps_releaseNotices (s : State) : KeepsBuffers c s s.releaseNotices := by
  refine releaseNotices_keeps (fun u t hu h => h.trans ?_) (.refl s)
  unfold State.releaseNotice at hu
  split at hu
  · cases hu
  · split at hu
    · split at hu
      · cases hu
      · cases hu
        exact (keeps_modifyNotices u _).trans (keeps_placeReply _ _ _)
    · cases hu

theorem keeps_select (s : State) : KeepsBuffers c s s.select := by
  unfold State.select
  split
  · next h => exact keeps_modifyLink rfl fun _ _ => h.1
  · exact .refl s

theorem keeps_finish (s : State) : KeepsBuffers c s s.finish := (keeps_releaseNotices s).trans (keeps_select _)

/-! ## The lifecycle of one flow (section 3) -/

theorem keeps_makePending (s : State) (f : FlowId) (b : LifecycleBlock) : KeepsBuffers c s (s.makePending f b) :=
  (keeps_modifyFlow rfl rfl).trans (keeps_modifyLink rfl id)

theorem keeps_clearPending (s : State) (f : FlowId) : KeepsBuffers c s (s.clearPending f) :=
  (keeps_modifyFlow rfl rfl).trans (keeps_modifyLink rfl id)

/-- R49: a change of state in which the flow stays in use, or out of it. -/
theorem keeps_changeFlowState {s : State} {f : FlowId} {new : FlowState} {cause : FlowCause}
    (hu : ({ s.flow f with state := new } : Flow).inUse = (s.flow f).inUse) :
    KeepsBuffers c s (s.changeFlowState f new cause) :=
  (keeps_modifyFlow hu rfl).trans (keeps_raiseCause _ _)

theorem keeps_completeDeferred (s : State) (f : FlowId) (o : Completion) :
    KeepsBuffers c s (s.completeDeferred f o) := (keeps_modifyFlow rfl rfl).trans (keeps_complete _ _ _)

theorem ended_collectedBuffers (fl : Flow) (new : FlowState) (failure : Option FailureCause) (keep : Bool) :
    (fl.ended new failure keep).collectedBuffers = 0 := rfl

/-- R51: an entry to CLOSED or FAILED returns what the flow's collections hold; what stands in the wire egress stays
charged. -/
theorem keeps_endFlow (s : State) (f : FlowId) {new : FlowState} (hn : new = .closed ∨ new = .failed)
    (cause : FlowCause) (failure : Option FailureCause) (keep : Bool)
    (o : DeferredCode → Completion × Option Detail) :
    KeepsBuffers c s (s.endFlow f new cause failure keep o) := by
  refine ⟨fun h => h.endFlow f hn cause failure keep o, fun _ h => ?_⟩
  obtain ⟨armed, n, e⟩ := endFlow_eq s f new cause failure keep o
  rw [e]
  refine ⟨?_, fun k => ?_, ?_⟩
  · cases keep <;> exact h.slot
  · have hk : readAt s.pool.held k = (s.flow k).collectedBuffers + s.wire.egressOf (.flow k) := h.flows k
    change readAt (s.pool.returnFlow f _).held k = (readAt (writeAt s.flows f _) k).collectedBuffers + _
    by_cases hf : f = k
    · subst hf
      rw [returnFlow_held, readAt_writeAt_same, ended_collectedBuffers]
      change _ = _ + s.wire.egressOf _
      omega
    · rw [readAt_writeAt_ne _ _ hf]
      exact (readAt_writeAt_ne _ _ hf).trans hk
  · cases keep <;> exact h.bulk

theorem keeps_closeFlow (s : State) (f : FlowId) (cause : FlowCause) (keep : Bool)
    (o : DeferredCode → Completion × Option Detail) : KeepsBuffers c s (s.closeFlow f cause keep o) :=
  keeps_endFlow s f (.inl rfl) cause none keep o

theorem keeps_failFlow (s : State) (f : FlowId) (failure : FailureCause) (keep : Bool)
    (o : DeferredCode → Completion × Option Detail) : KeepsBuffers c s (s.failFlow f failure keep o) :=
  keeps_endFlow s f (.inr rfl) _ _ keep o

/-- R58. -/
theorem keeps_completeDrain (s : State) (f : FlowId) : KeepsBuffers c s (s.completeDrain f) := by
  unfold State.completeDrain
  split
  · next hd =>
    have hs : (s.flow f).state = .draining := by
      simp only [Flow.drained, Bool.and_eq_true, beq_iff_eq] at hd
      exact hd.1.1.1.1
    split
    · refine (keeps_makePending s f _).trans ((keeps_modifyFlow rfl rfl).trans (keeps_changeFlowState ?_))
      simp [Flow.inUse, State.makePending, hs]
    · exact (keeps_makePending s f _).trans (keeps_closeFlow _ f _ _ _)
    · exact .refl s
  · exact .refl s

theorem reinitialised_collectedBuffers (fl : Flow) (base : Nat) : (fl.reinitialised base).collectedBuffers = 0 := rfl

/-- R94, R52, R54: a CLOSED flow whose collections are empty comes into use. -/
theorem keeps_prepareOpening {s u : State} {f : FlowId} (e : s.prepareOpening f = some u)
    (hs : (s.flow f).state = .closed) (h0 : c → (s.flow f).collectedBuffers = 0) {g : Flow → Flow}
    (hg : ∀ fl, (g fl).inUse = true) (hc : ∀ fl, (g fl).collectedBuffers = fl.collectedBuffers) :
    KeepsBuffers c s (u.modifyFlow f g) := by
  refine ⟨fun h => h.prepareOpening e (by simp [Flow.inUse, hs]) hg, fun hp h => ?_⟩
  obtain ⟨v, hv, rfl⟩ := Option.map_eq_some_iff.1 e
  obtain ⟨-, armed, n, rfl⟩ := reserveFlow_some hv
  rw [modifyFlow_modifyFlow]
  refine ⟨h.slot, fun k => ?_, h.bulk⟩
  rw [flow_modifyFlow]
  refine (h.flows k).trans (congrArg (· + _) ?_)
  split
  · next hk =>
    subst hk
    rw [hc, reinitialised_collectedBuffers]
    exact h0 hp
  · rfl

end Sys2Proof.Machine

namespace Sys2Proof.Machine

/-! ## The buffers of a flow's collections (5.2) -/

@[simp] theorem sack_holdsBuffer (e : WindowEntry) : e.sack.holdsBuffer = e.holdsBuffer := by
  obtain ⟨q, c, n⟩ := e
  cases c <;> rfl

@[simp] theorem lose_holdsBuffer (e : WindowEntry) : e.lose.holdsBuffer = e.holdsBuffer := by
  obtain ⟨q, c, n⟩ := e
  rcases c with _ | _ | _ | a
  case skipped => cases a <;> rfl
  all_goals rfl

@[simp] theorem resend_holdsBuffer (e : WindowEntry) : e.resend.holdsBuffer = e.holdsBuffer := by
  obtain ⟨q, c, n⟩ := e
  rcases c with _ | _ | _ | a
  case skipped => cases a <;> rfl
  all_goals rfl

@[simp] theorem marked_holdsBuffer (e : WindowEntry) (set lost : Bool) :
    (e.marked set lost).holdsBuffer = e.holdsBuffer := by
  cases set <;> cases lost <;> simp [WindowEntry.marked]

theorem countP_holdsBuffer_map {g : WindowEntry → WindowEntry} (hg : ∀ e, (g e).holdsBuffer = e.holdsBuffer)
    (l : List WindowEntry) : (l.map g).countP (·.holdsBuffer) = l.countP (·.holdsBuffer) := by
  rw [List.countP_map]
  exact List.countP_congr fun e _ => by rw [Function.comp_apply, hg]

/-- A change of window entries that leaves each its buffer. -/
theorem collectedBuffers_congr {fl fl' : Flow} (hq : fl'.sendQueue = fl.sendQueue)
    (hw : fl'.window.countP (·.holdsBuffer) = fl.window.countP (·.holdsBuffer)) (hr : fl'.reorder = fl.reorder) :
    fl'.collectedBuffers = fl.collectedBuffers := by
  simp only [Flow.collectedBuffers, hq, hw, hr]

theorem modifyEntry_collectedBuffers {g : WindowEntry → WindowEntry} (hg : ∀ e, (g e).holdsBuffer = e.holdsBuffer)
    (fl : Flow) (q : Seq) : (fl.modifyEntry q g).collectedBuffers = fl.collectedBuffers :=
  collectedBuffers_congr rfl (countP_holdsBuffer_map (fun e => by split <;> simp [hg]) _) rfl

/-- R18. -/
theorem retxExpired_collectedBuffers (fl : Flow) (p : Profile) :
    (fl.retxExpired p).collectedBuffers = fl.collectedBuffers := by
  have hl : fl.loseOldest.collectedBuffers = fl.collectedBuffers := by
    unfold Flow.loseOldest
    split
    · exact modifyEntry_collectedBuffers lose_holdsBuffer fl _
    · rfl
  exact hl

/-- R12 to R16: the window that a STATUS leaves, in every state. -/
theorem takeStatus_collections (fl : Flow) (base : Nat) (a : Seq) (map : BitVec 64) (high : Option Seq) :
    (fl.takeStatus base a map high).sendQueue = fl.sendQueue ∧
      (fl.takeStatus base a map high).window = fl.windowAfter a map high ∧
      (fl.takeStatus base a map high).reorder = fl.reorder := by
  have hstop : ∀ u : Flow, u.stopIfIdle.sendQueue = u.sendQueue ∧ u.stopIfIdle.window = u.window ∧
      u.stopIfIdle.reorder = u.reorder := fun u => by
    unfold Flow.stopIfIdle
    split <;> exact ⟨rfl, rfl, rfl⟩
  unfold Flow.takeStatus
  obtain ⟨hq, hw, hr⟩ := hstop
    ((((fl.release a).resetAfterAdvance fl.lower base).markSelective a map).markBelowHigh high)
  rw [hq, hw, hr, Flow.marks_eq, Flow.resetAfterAdvance_eq]
  exact ⟨rfl, rfl, rfl⟩

/-- R12: the buffers released and those that the flow keeps are those that it held. -/
theorem takeStatus_collectedBuffers (fl : Flow) (base : Nat) (a : Seq) (map : BitVec 64) (high : Option Seq) :
    (fl.takeStatus base a map high).collectedBuffers + fl.releasedBuffers a = fl.collectedBuffers := by
  obtain ⟨hq, hw, hr⟩ := takeStatus_collections fl base a map high
  have hsplit := List.countP_eq_countP_filter_add fl.window (·.holdsBuffer) fun e => seqBefore e.seq a
  have hkept : (fl.windowAfter a map high).countP (·.holdsBuffer) = (fl.keptAfter a).countP (·.holdsBuffer) :=
    countP_holdsBuffer_map (fun _ => marked_holdsBuffer _ _ _) _
  rw [Flow.collectedBuffers, hq, hw, hr, hkept, releasedBuffers_eq, Flow.collectedBuffers, hsplit]
  simp only [Flow.keptAfter]
  omega

/-- R9: the frame of the entry for N leaves the send queue. -/
theorem takeNew_collectedBuffers {fl : Flow} {frame : Frame} {rest : List Frame} (h : fl.sendQueue = frame :: rest) :
    (fl.takeNew frame rest).collectedBuffers = fl.collectedBuffers := by
  simp [Flow.collectedBuffers, Flow.takeNew, Flow.startRetx, h, WindowEntry.holdsBuffer]
  omega

/-- R22: the one entry of a sequence gives up its buffer. -/
theorem skip_collectedBuffers {fl : Flow} {e : WindowEntry} (hn : (fl.window.map (·.seq)).Nodup)
    (he : e ∈ fl.window) (hb : e.holdsBuffer = true) :
    (fl.skip e.seq).collectedBuffers + 1 = fl.collectedBuffers := by
  obtain ⟨older, newer, hw⟩ := List.append_of_mem he
  rw [hw, List.map_append, List.map_cons, List.nodup_append, List.nodup_cons] at hn
  obtain ⟨-, ⟨hnewer, -⟩, holder⟩ := hn
  have same : ∀ l : List WindowEntry, (∀ x ∈ l, x.seq ≠ e.seq) →
      l.map (fun x => if x.seq = e.seq then { x with condition := .skipped .sent, transmissions := 1 } else x) = l :=
    fun l hl => (List.map_congr_left fun x hx => if_neg (hl x hx)).trans (List.map_id l)
  have hskip : (fl.skip e.seq).window =
      older ++ { e with condition := .skipped .sent, transmissions := 1 } :: newer := by
    change fl.window.map _ = _
    rw [hw, List.map_append, List.map_cons, if_pos rfl, same older, same newer]
    · exact fun x hx hs => hnewer (hs ▸ List.mem_map_of_mem hx)
    · exact fun x hx hs => holder _ (List.mem_map_of_mem hx) _ (by simp) hs
  change fl.sendQueue.length + (fl.skip e.seq).window.countP _ + fl.reorder.countP _ + 1 = _
  rw [Flow.collectedBuffers, hskip, hw]
  have hs : ({ e with condition := .skipped .sent, transmissions := 1 } : WindowEntry).holdsBuffer = false := rfl
  simp only [List.countP_append, List.countP_cons, hb, hs, if_true]
  simp only [Bool.false_eq_true, if_false]
  omega

/-- R30: the frames that a run delivers are those of the members that it removes. -/
theorem inOrderRun_buffers (e : Seq) (l : List Member) :
    (inOrderRun e l).delivered.length + (inOrderRun e l).reorder.countP (·.holdsBuffer) =
      l.countP (·.holdsBuffer) := by
  induction l generalizing e with
  | nil => rfl
  | cons m rest ih =>
    unfold inOrderRun
    split
    · have hrun := ih (e + 1)
      generalize inOrderRun (e + 1) rest = run at *
      rw [List.countP_cons]
      cases hk : m.kind with
      | frame frame =>
        have hb : m.holdsBuffer = true := by simp [Member.holdsBuffer, hk]
        simp [hb]
        omega
      | skip | delivered =>
        have hb : m.holdsBuffer = false := by simp [Member.holdsBuffer, hk]
        simp [hb]
        omega
    · simp

theorem afterRun_collectedBuffers (fl : Flow) :
    (fl.afterRun fl.advance).collectedBuffers + fl.advance.delivered.length = fl.collectedBuffers := by
  have := inOrderRun_buffers (fl.expected + 1) fl.reorder
  simp only [Flow.collectedBuffers, Flow.afterRun, Flow.advance] at *
  omega

theorem insertMember_perm (e : Seq) (m : Member) (l : List Member) : (insertMember e m l).Perm (m :: l) := by
  induction l with
  | nil => exact .refl _
  | cons x rest ih =>
    unfold insertMember
    split
    · exact .refl _
    · exact (ih.cons x).trans (.swap m x rest)

theorem insertMember_collectedBuffers (fl : Flow) (m : Member) :
    ({ fl with reorder := insertMember fl.expected m fl.reorder } : Flow).collectedBuffers =
      fl.collectedBuffers + if m.holdsBuffer then 1 else 0 := by
  simp only [Flow.collectedBuffers, (insertMember_perm _ _ _).countP_eq, List.countP_cons]
  omega

end Sys2Proof.Machine

namespace Sys2Proof.Machine

variable {c : Prop}

/-! ## The link port (R133, R139, R140) -/

/-- R133, R139: a grant has arrived in the open slot, and is no longer in transit. -/
def LinkPort.granted (l : LinkPort) : Prop := l.grant = none ∧ l.transmitter = .slotOpen

/-- R139: a grant in transit that arrives. -/
theorem granted_of_grantInSlot {l : LinkPort} {g : Grant} (h : l.grantInSlot) (hg : l.grant = some g) :
    LinkPort.granted { l with grant := none } := ⟨rfl, h (by rw [hg]; rfl)⟩

theorem keeps_takeGrant (s : State) : KeepsBuffers c s (s.modifyLink fun l => { l with grant := none }) :=
  keeps_modifyLink rfl fun _ h => by simp at h

/-- R140: a block presented in an open slot; one from the link bulk queue stays charged. -/
theorem spare_present {s : State} (ho : s.link.transmitter = .slotOpen) (b : LinkBlock) (owner : LinkOwner)
    (a : Account) :
    (s.present b owner).spare a = s.spare a - if a = .bulk ∧ owner = .bulkBuffer then 1 else 0 := by
  have hc : (s.present b owner).charged a = s.charged a := by
    rw [present_eq]
    cases a <;> rfl
  have hw : (s.present b owner).wire = s.wire := by rw [present_eq]
  have hk : (s.present b owner).kept a = s.kept a + if a = .bulk ∧ owner = .bulkBuffer then 1 else 0 := by
    rw [present_eq]
    cases a with
    | flow f => rfl
    | bulk => cases owner <;> simp [State.kept, LinkPort.bulkFrames, ho]
  simp only [State.spare, hc, hk, hw]
  split <;> omega

theorem present_grant (s : State) (b : LinkBlock) (owner : LinkOwner) :
    (s.present b owner).link.grant = s.link.grant := by rw [present_eq]

theorem State.PoolLaws.present {s : State} (h : s.PoolLaws) (b : LinkBlock) (owner : LinkOwner) :
    (s.present b owner).PoolLaws := by
  rw [present_eq]
  exact h.congr ⟨_, rfl⟩ rfl (fun _ => rfl) fun _ => rfl

/-- R140: a block that holds no bulk buffer is presented in an open slot. -/
theorem keeps_present {s : State} (ho : c → s.link.granted) (b : LinkBlock) {owner : LinkOwner}
    (hb : owner ≠ .bulkBuffer) : KeepsBuffers c s (s.present b owner) := by
  refine keeps_of_spare (fun h => h.present b owner) (fun hc _ hg => ?_) fun hc hz a => ?_
  · obtain ⟨hnone, -⟩ := ho hc
    simp [present_grant, hnone] at hg
  · obtain ⟨-, hopen⟩ := ho hc
    rw [spare_present hopen, hz a]
    simp [hb]

/-! ## The sender half (section 1) -/

@[simp] theorem releaseFlow_link (s : State) (f : FlowId) (n : Nat) : (s.releaseFlow f n).link = s.link := by
  obtain ⟨armed, notices, e⟩ := releaseFlow_eq s f n
  rw [e]

@[simp] theorem releaseFlow_flow (s : State) (f : FlowId) (n : Nat) (k : FlowId) :
    (s.releaseFlow f n).flow k = s.flow k := by
  simp [State.flow]

/-- R12, R98: the buffers that a STATUS releases. -/
theorem keeps_takeStatus (s : State) (f : FlowId) (base : Nat) (a : Seq) (map : BitVec 64) (high : Option Seq) :
    KeepsBuffers c s ((s.modifyFlow f (·.takeStatus base a map high)).releaseFlow f
      ((s.flow f).releasedBuffers a)) := by
  have hb := takeStatus_collectedBuffers (s.flow f) base a map high
  refine keeps_of_spare (fun h => ?_) (fun _ h => by rw [releaseFlow_link]; exact h) fun _ hz k => ?_
  · have hu : ((s.flow f).takeStatus base a map high).inUse = (s.flow f).inUse := by
      simp only [Flow.inUse, takeStatus_state]
    exact (h.modifyFlow hu).releaseFlow f _
  · have hh : s.held f = (s.flow f).collectedBuffers + s.wire.egressOf (.flow f) := charged_of_spare (hz (.flow f))
    rw [spare_releaseFlow (by rw [modifyFlow_held]; omega), spare_modifyFlow, hz k]
    split <;> omega

/-- R11 to R16, R58. -/
theorem keeps_statusAtFlow (s : State) (f : FlowId) (a : Seq) (map : BitVec 64) (high : Option Seq) :
    KeepsBuffers c s (s.statusAtFlow f a map high) := by
  cases ht : (s.flow f).takesBlocks with
  | true =>
    rw [statusAtFlow_of_traffic ht]
    split
    · exact keeps_countFlow s f _
    · exact (keeps_takeStatus s f _ a map high).trans (keeps_completeDrain _ f)
  | false =>
    unfold State.statusAtFlow
    unfold Flow.takesBlocks at ht
    split
    · exact .refl s
    · exact .refl s
    · exact keeps_countDevice s _
    all_goals simp_all

theorem keeps_sendData {s : State} (ho : c → s.link.granted) (f : FlowId) (cls : PortClass) (epoch : Epoch)
    (body : BlockBody) : KeepsBuffers c s (s.sendData f cls epoch body) :=
  (keeps_present ho _ (by simp)).trans (keeps_modifyLink rfl id)

/-- R22, R98: a due entry with a frame is converted to SKIPPED, and its buffer returns. -/
theorem keeps_skip {s : State} {f : FlowId} {e : WindowEntry}
    (hn : c → ((s.flow f).window.map (·.seq)).Nodup) (he : e ∈ (s.flow f).window) (hb : e.holdsBuffer = true) :
    KeepsBuffers c s ((s.releaseFlow f 1).modifyFlow f (·.skip e.seq)) := by
  refine keeps_of_spare (fun h => ?_) (fun _ h => by rw [modifyFlow_link, releaseFlow_link]; exact h) fun hc hz k => ?_
  · have hu : ∀ fl : Flow, (fl.skip e.seq).inUse = fl.inUse := fun _ => rfl
    exact (h.releaseFlow f 1).modifyFlow (hu _)
  · have hh : s.held f = (s.flow f).collectedBuffers + s.wire.egressOf (.flow f) := charged_of_spare (hz (.flow f))
    have hskip := skip_collectedBuffers (hn hc) he hb
    rw [spare_modifyFlow, spare_releaseFlow (by omega), hz k, releaseFlow_flow]
    split <;> omega

end Sys2Proof.Machine

namespace Sys2Proof.Machine

variable {c : Prop}

/-! ## Data grants (R8, R9, R20 to R22) -/

theorem pendingRetx_holdsBuffer {e : WindowEntry} {frame : Frame} (h : e.condition = .pendingRetx frame) :
    e.holdsBuffer = true := by
  simp [WindowEntry.holdsBuffer, h]

theorem keeps_serveDue {s : State} {f : FlowId} {e : WindowEntry} (cls : PortClass) (epoch : Epoch)
    (ho : c → s.link.granted) (hn : c → ((s.flow f).window.map (·.seq)).Nodup) (he : e ∈ (s.flow f).window) :
    KeepsBuffers c s (s.serveDue f cls epoch e) := by
  have hu : ∀ fl : Flow, (fl.resend e.seq).inUse = fl.inUse := fun _ => rfl
  have hc : ∀ fl : Flow, (fl.resend e.seq).collectedBuffers = fl.collectedBuffers := fun fl =>
    modifyEntry_collectedBuffers resend_holdsBuffer fl e.seq
  have hm : KeepsBuffers c s (s.modifyFlow f (·.resend e.seq)) := keeps_modifyFlow (hu _) (hc _)
  have hs : KeepsBuffers c (s.modifyFlow f (·.resend e.seq))
      ((s.modifyFlow f (·.resend e.seq)).sendData f cls epoch (e.block f)) :=
    keeps_sendData (by rw [modifyFlow_link]; exact ho) f cls epoch _
  unfold State.serveDue
  split
  · exact (hm.trans hs).trans (keeps_countFlow _ f _)
  · split
    · next frame hc _ =>
      have hk : KeepsBuffers c s ((s.releaseFlow f 1).modifyFlow f (·.skip e.seq)) :=
        keeps_skip hn he (pendingRetx_holdsBuffer hc)
      have hs : KeepsBuffers c ((s.releaseFlow f 1).modifyFlow f (·.skip e.seq))
          (((s.releaseFlow f 1).modifyFlow f (·.skip e.seq)).sendData f cls epoch (.advance f e.seq)) :=
        keeps_sendData (by rw [modifyFlow_link, releaseFlow_link]; exact ho) f cls epoch _
      unfold State.sendSkip
      exact (hk.trans hs).trans (keeps_countFlow _ f _)
    · exact (keeps_makePending s f _).trans (keeps_failFlow _ f _ _ _)

theorem keeps_dataGrantAt {s : State} {f : FlowId} (cls : PortClass) (ho : c → s.link.granted)
    (hn : c → ((s.flow f).window.map (·.seq)).Nodup) : KeepsBuffers c s (s.dataGrantAt f cls) := by
  unfold State.dataGrantAt
  split
  · exact .refl s
  · next epoch _ =>
    split
    · unfold State.serveData
      split
      · next e he => exact keeps_serveDue cls epoch ho hn (List.mem_of_find?_eq_some he)
      · split
        · next frame rest hq =>
          have hu : ∀ fl : Flow, (fl.takeNew frame rest).inUse = fl.inUse := fun _ => rfl
          have hm : KeepsBuffers c s (s.modifyFlow f (·.takeNew frame rest)) :=
            keeps_modifyFlow (hu _) (takeNew_collectedBuffers hq)
          unfold State.sendNew
          exact hm.trans ((keeps_sendData (by exact ho) f cls epoch _).trans (keeps_countFlow _ f _))
        · exact .refl s
    · exact .refl s

/-! ## The receiver half (section 2) -/

theorem keeps_setStatusPending (s : State) (f : FlowId) : KeepsBuffers c s (s.setStatusPending f) :=
  keeps_modifyFlow rfl rfl

theorem keeps_acceptData (s : State) (f : FlowId) : KeepsBuffers c s (s.acceptData f) := keeps_modifyFlow rfl rfl

theorem State.PoolLaws.deliver {s : State} (h : s.PoolLaws) (f : FlowId) (frame : Frame) :
    (s.deliver f frame).PoolLaws :=
  h.congr ⟨s.pool.lowArmed, rfl⟩ rfl (fun _ => rfl) fun _ => rfl

/-- R29, R37: a buffer granted for a frame that goes to the wire egress. -/
theorem keeps_grant_deliver {s u : State} {f : FlowId} (h : s.grantFlow f = some u) (frame : Frame) :
    KeepsBuffers c s (u.deliver f frame) := by
  refine keeps_of_spare (fun hp => (hp.grantFlow h).deliver f frame) (fun _ hs => ?_) fun _ hz a => ?_
  · obtain ⟨-, armed, n, rfl⟩ := grantFlow_some h
    exact hs
  · rw [spare_deliver, spare_grantFlow h, hz a]
    omega

/-- R32: a buffer granted for a frame that joins the reorder set. -/
theorem keeps_grant_insert {s u : State} {f : FlowId} (h : s.grantFlow f = some u) (q : Seq) (frame : Frame) :
    KeepsBuffers c s (u.insertMember f ⟨q, .frame frame⟩) := by
  refine keeps_of_spare (fun hp => (hp.grantFlow h).modifyFlow rfl) (fun _ hs => ?_) fun _ hz a => ?_
  · obtain ⟨-, armed, n, rfl⟩ := grantFlow_some h
    exact hs
  · rw [State.insertMember, spare_modifyFlow, spare_grantFlow h, hz a, insertMember_collectedBuffers]
    simp only [Member.holdsBuffer, if_true]
    split <;> omega

/-- R33, R38: a member without a buffer joins the reorder set. -/
theorem keeps_insertMember {s : State} {f : FlowId} {m : Member} (hm : m.holdsBuffer = false) :
    KeepsBuffers c s (s.insertMember f m) :=
  keeps_modifyFlow rfl (by rw [insertMember_collectedBuffers, hm]; rfl)

/-- R2: a buffer granted for a frame that joins the send queue. -/
theorem keeps_grant_enqueue {s u : State} {f : FlowId} (h : s.grantFlow f = some u) (frame : Frame) :
    KeepsBuffers c s (u.modifyFlow f fun fl => { fl with sendQueue := fl.sendQueue ++ [frame] }) := by
  refine keeps_of_spare (fun hp => (hp.grantFlow h).modifyFlow rfl) (fun _ hs => ?_) fun _ hz a => ?_
  · obtain ⟨-, armed, n, rfl⟩ := grantFlow_some h
    exact hs
  · rw [spare_modifyFlow, spare_grantFlow h, hz a]
    simp only [Flow.collectedBuffers, List.length_append, List.length_singleton]
    split <;> omega

theorem deliverAll_pool (s : State) (f : FlowId) (frames : List Frame) :
    (s.deliverAll f frames).pool = s.pool ∧ (s.deliverAll f frames).params = s.params ∧
      (s.deliverAll f frames).link = s.link := by
  rw [deliverAll_eq]
  exact ⟨rfl, rfl, rfl⟩

/-- R30: the frames of the run go to the wire egress. -/
theorem keeps_advanceExpected (s : State) (f : FlowId) : KeepsBuffers c s (s.advanceExpected f) := by
  have hb := afterRun_collectedBuffers (s.flow f)
  unfold State.advanceExpected
  simp only
  refine keeps_of_spare (fun h => ?_) (fun _ h => ?_) fun _ hz a => ?_
  · have hu : ((s.flow f).afterRun (s.flow f).advance).inUse = (s.flow f).inUse := rfl
    obtain ⟨hp, hpar, -⟩ := deliverAll_pool (s.modifyFlow f (·.afterRun (s.flow f).advance)) f
      (s.flow f).advance.delivered
    obtain ⟨hf, ht⟩ := deliverAll_kept (s.modifyFlow f (·.afterRun (s.flow f).advance)) f
      (s.flow f).advance.delivered
    exact (h.modifyFlow hu).congr ⟨_, hp⟩ (congrArg _ hpar) (fun k => by simp only [State.profile, ht])
      fun k => congrArg (fun l => (readAt l k).inUse) hf
  · rw [(deliverAll_pool _ f _).2.2]
    exact h
  · rw [spare_deliverAll, spare_modifyFlow, hz a]
    split <;> omega

theorem keeps_dataInOrder (s : State) (f : FlowId) (frame : Frame) : KeepsBuffers c s (s.dataInOrder f frame) := by
  unfold State.dataInOrder
  split
  · exact keeps_countFlow s f _
  · next u hu =>
    exact (keeps_grant_deliver hu frame).trans ((keeps_advanceExpected _ f).trans (keeps_acceptData _ f))

theorem keeps_dataEarly (s : State) (f : FlowId) (q : Seq) (frame : Frame) :
    KeepsBuffers c s (s.dataEarly f q frame) := by
  unfold State.dataEarly
  split
  · exact keeps_countFlow s f _
  · next u hu =>
    refine KeepsBuffers.trans ?_ ((keeps_setStatusPending _ f).trans (keeps_acceptData _ f))
    split
    · exact keeps_grant_insert hu q frame
    · exact (keeps_grant_deliver hu frame).trans (keeps_insertMember rfl)

theorem keeps_dataElsewhere (s : State) (f : FlowId) : KeepsBuffers c s (s.dataElsewhere f) := by
  unfold State.dataElsewhere
  split
  · exact keeps_makePending s f _
  · exact keeps_countDevice s _
  all_goals exact .refl s

/-- R28, R65. -/
theorem keeps_dataAtFlow (s : State) (f : FlowId) (q : Seq) (frame : Frame) :
    KeepsBuffers c s (s.dataAtFlow f q frame) := by
  have hdup : KeepsBuffers c s (s.dataDuplicate f) := (keeps_countFlow s f _).trans (keeps_setStatusPending _ f)
  unfold State.dataAtFlow
  split
  · unfold State.sortData
    simp only
    split
    · exact keeps_dataInOrder s f frame
    · split
      · split
        · exact hdup
        · exact keeps_dataEarly s f q frame
      · split
        · exact keeps_countFlow s f _
        · exact hdup
  · exact keeps_dataElsewhere s f

/-- R38, R65. -/
theorem keeps_advanceAtFlow (s : State) (f : FlowId) (q : Seq) : KeepsBuffers c s (s.advanceAtFlow f q) := by
  unfold State.advanceAtFlow
  split
  · unfold State.sortAdvance
    refine KeepsBuffers.trans ?_ (keeps_setStatusPending _ f)
    split
    · exact keeps_advanceExpected s f
    · split
      · split
        · exact .refl s
        · exact keeps_insertMember rfl
      · split
        · exact keeps_countFlow s f _
        · exact .refl s
  · exact keeps_dataElsewhere s f

/-- R43. -/
theorem keeps_statusGrantAt {s : State} (f : FlowId) (ho : c → s.link.granted) :
    KeepsBuffers c s (s.statusGrantAt f) := by
  unfold State.statusGrantAt
  split
  · exact .refl s
  · split
    · exact (keeps_modifyFlow (f := f) (g := (·.statusSent)) rfl rfl).trans
        ((keeps_present (by exact ho) _ (by simp)).trans (keeps_modifyLink rfl id))
    · exact .refl s

/-! ## The lifecycle (section 3) -/

/-- R54. -/
theorem keeps_openAtClosed {s : State} {f : FlowId} (hs : (s.flow f).state = .closed)
    (h0 : c → (s.flow f).collectedBuffers = 0) (window : Nat) (order : OrderMode) :
    KeepsBuffers c s (s.openAtClosed f window order) := by
  unfold State.openAtClosed
  simp only
  split
  · exact keeps_makePending s f _
  · split
    · exact keeps_makePending s f _
    · split
      · exact keeps_makePending s f _
      · next u hu =>
        have hopen : KeepsBuffers c s (u.modifyFlow f fun fl => { fl with state := .opened }) :=
          keeps_prepareOpening hu hs h0 (fun _ => rfl) fun _ => rfl
        have he : (u.makePending f (.openAck .accept)).changeFlowState f .opened .peerOpen =
            ((u.modifyFlow f fun fl => { fl with state := .opened }).makePending f (.openAck .accept)).raiseCause
              (.flowState f (u.flow f).state .opened .peerOpen) := by
          simp [State.changeFlowState, State.makePending, State.modifyFlow, State.modifyLink, State.flow]
        rw [he]
        exact hopen.trans ((keeps_makePending _ f _).trans (keeps_raiseCause _ _))

/-- R52. -/
theorem keeps_takeOpening {s u : State} {f : FlowId} (hu : s.prepareOpening f = some u)
    (hs : (s.flow f).state = .closed) (h0 : c → (s.flow f).collectedBuffers = 0) (tag : Tag) :
    KeepsBuffers c s (u.takeOpening f tag) := by
  have hopen : KeepsBuffers c s (u.modifyFlow f fun fl =>
      { fl with state := .opening, attempts := 0, deferred := some ⟨.flowOpen, tag⟩ }) :=
    keeps_prepareOpening hu hs h0 (fun _ => rfl) fun _ => rfl
  have he : u.takeOpening f tag = ((u.modifyFlow f fun fl =>
      { fl with state := .opening, attempts := 0, deferred := some ⟨.flowOpen, tag⟩ }).makePending f
        (.openFlow (u.profile f).window (u.profile f).order)).raiseCause
          (.flowState f (u.flow f).state .opening .request) := by
    simp [State.takeOpening, State.makeOpenPending, State.changeFlowState, State.makePending, State.modifyFlow,
      State.modifyLink, State.flow]
  rw [he]
  exact hopen.trans ((keeps_makePending _ f _).trans (keeps_raiseCause _ _))

/-- R55: crossed opens. -/
theorem keeps_openCrossed {s : State} {f : FlowId} (hs : (s.flow f).state = .opening) (window : Nat)
    (order : OrderMode) : KeepsBuffers c s (s.openCrossed f window order) := by
  unfold State.openCrossed
  simp only
  split
  · refine (keeps_modifyFlow (f := f) (g := fun fl => { fl with openTimer := .stopped }) rfl rfl).trans
      ((keeps_makePending _ f _).trans ((keeps_changeFlowState ?_).trans (keeps_completeDeferred _ f _)))
    simp [Flow.inUse, State.makePending, hs]
  · exact keeps_makePending s f _

/-- R54, R55. -/
theorem keeps_openAtFlow {s : State} {f : FlowId}
    (h0 : c → (s.flow f).state = .closed → (s.flow f).collectedBuffers = 0) (window : Nat) (order : OrderMode) :
    KeepsBuffers c s (s.openAtFlow f window order) := by
  unfold State.openAtFlow
  split
  · next hs => exact keeps_openAtClosed hs (fun hp => h0 hp hs) window order
  · next hs => exact keeps_openCrossed hs window order
  · exact keeps_makePending s f _
  · exact keeps_countDevice s _
  · exact keeps_countDevice s _
  · exact keeps_makePending s f _

theorem keeps_clearOpen (s : State) (f : FlowId) : KeepsBuffers c s (s.clearOpen f) := by
  unfold State.clearOpen
  split
  · exact keeps_clearPending s f
  · exact .refl s

theorem clearOpen_state (s : State) (f : FlowId) : ((s.clearOpen f).flow f).state = (s.flow f).state := by
  unfold State.clearOpen
  split
  · simp [State.clearPending]
  · rfl

/-- R56. -/
theorem keeps_openAckAtFlow (s : State) (f : FlowId) (verdict : Verdict) :
    KeepsBuffers c s (s.openAckAtFlow f verdict) := by
  unfold State.openAckAtFlow
  split
  · unfold State.acceptanceAtFlow
    split
    · next hs =>
      refine (keeps_modifyFlow (f := f) (g := fun fl => { fl with openTimer := .stopped }) rfl rfl).trans
        ((keeps_clearOpen _ f).trans ((keeps_changeFlowState ?_).trans (keeps_completeDeferred _ f _)))
      simp [Flow.inUse, clearOpen_state, hs]
    · exact keeps_makePending s f _
    · exact .refl s
    all_goals exact keeps_countDevice s _
  · unfold State.refusalAtFlow
    split
    · exact keeps_closeFlow s f _ _ _
    all_goals exact keeps_countDevice s _

/-- R60. -/
theorem keeps_closeAtFlow (s : State) (f : FlowId) : KeepsBuffers c s (s.closeAtFlow f) := by
  have horigin : KeepsBuffers c s (s.modifyFlow f fun fl => { fl with drainOrigin := some .peerEnd }) :=
    keeps_modifyFlow rfl rfl
  unfold State.closeAtFlow
  split
  · next hs =>
    refine horigin.trans ((keeps_changeFlowState ?_).trans (keeps_completeDrain _ f))
    simp [Flow.inUse, hs]
  · split
    · exact horigin.trans ((keeps_completeDeferred _ f _).trans (keeps_completeDrain _ f))
    · exact .refl s
  · exact keeps_makePending s f _
  · exact keeps_makePending s f _
  all_goals exact .refl s

theorem keeps_closeAckAtFlow (s : State) (f : FlowId) : KeepsBuffers c s (s.closeAckAtFlow f) := by
  unfold State.closeAckAtFlow
  split
  · exact keeps_closeFlow s f _ _ _
  · exact .refl s

theorem keeps_abortAtFlow (s : State) (f : FlowId) : KeepsBuffers c s (s.abortAtFlow f) := by
  unfold State.abortAtFlow
  split
  · exact keeps_failFlow s f _ _ _
  · exact .refl s

theorem keeps_afterTaking (s : State) (f : FlowId) (b : LifecycleBlock) : KeepsBuffers c s (s.afterTaking f b) := by
  cases b with
  | openFlow window order =>
    exact keeps_modifyFlow (f := f)
      (g := fun fl => { fl with attempts := fl.attempts + 1, openTimer := .running 250 }) rfl rfl
  | close =>
    exact keeps_modifyFlow (f := f)
      (g := fun fl => { fl with attempts := fl.attempts + 1, retxTimer := .running fl.rto }) rfl rfl
  | abort => exact keeps_completeDrain s f
  | openAck verdict =>
    unfold State.afterTaking
    simp only
    split
    · exact keeps_makePending s f _
    · exact keeps_completeDrain s f
  | closeAck =>
    unfold State.afterTaking
    simp only
    split
    · exact keeps_makePending s f _
    · exact keeps_completeDrain s f

/-- R50, R135. -/
theorem keeps_lifecycleGrantAt {s : State} (f : FlowId) (ho : c → s.link.granted) :
    KeepsBuffers c s (s.lifecycleGrantAt f) := by
  unfold State.lifecycleGrantAt
  split
  · exact .refl s
  · split
    · exact .refl s
    · split
      · exact .refl s
      · exact (keeps_clearPending s f).trans
          ((keeps_present (by exact ho) _ (by simp)).trans (keeps_afterTaking _ f _))

/-- R53. -/
theorem keeps_openTimerExpired (s : State) (f : FlowId) : KeepsBuffers c s (s.openTimerExpired f) := by
  unfold State.openTimerExpired
  split
  · exact (keeps_modifyFlow (f := f) (g := fun fl => { fl with openTimer := .stopped }) rfl rfl).trans
      (keeps_makePending _ f _)
  · exact keeps_closeFlow s f _ _ _

/-- R59. -/
theorem keeps_closeSeriesExpired (s : State) (f : FlowId) : KeepsBuffers c s (s.closeSeriesExpired f) := by
  unfold State.closeSeriesExpired
  simp only
  split
  · exact (keeps_modifyFlow rfl rfl).trans (keeps_makePending _ f _)
  · exact keeps_closeFlow s f _ _ _

end Sys2Proof.Machine

namespace Sys2Proof.Machine

variable {c : Prop}

/-! ## Events at every flow (R66 to R69) -/

theorem keeps_eachFlow {s : State} {g : State → FlowId → State} (hg : ∀ u f, KeepsBuffers c u (g u f)) :
    KeepsBuffers c s (s.eachFlow g) :=
  eachFlow_keeps (P := fun t => KeepsBuffers c s t) (fun u f h => h.trans (hg u f)) (.refl s)

/-- R66. -/
theorem keeps_lossAtFlow (s : State) (f : FlowId) : KeepsBuffers c s (s.lossAtFlow f) := by
  have hm : KeepsBuffers c s (s.modifyFlow f fun fl => { fl with suspended := true }) := keeps_modifyFlow rfl rfl
  unfold State.lossAtFlow
  split
  · exact keeps_closeFlow s f _ _ _
  · exact hm
  · exact hm
  · exact hm
  · exact .refl s
  · exact .refl s

theorem resumed_collectedBuffers (fl : Flow) (base : Nat) :
    (fl.resumed base).collectedBuffers = fl.collectedBuffers :=
  collectedBuffers_congr rfl (countP_holdsBuffer_map lose_holdsBuffer _) rfl

/-- R67. -/
theorem keeps_regainAtFlow (s : State) (f : FlowId) : KeepsBuffers c s (s.regainAtFlow f) := by
  have hu : ∀ base, ((s.flow f).resumed base).inUse = (s.flow f).inUse := fun _ => rfl
  have hm : KeepsBuffers c s (s.modifyFlow f (·.resumed (s.profile f).rtoBase)) :=
    keeps_modifyFlow (hu _) (resumed_collectedBuffers _ _)
  unfold State.regainAtFlow
  split
  · simp only
    split
    · exact hm.trans (keeps_makePending _ f _)
    · exact hm.trans (keeps_completeDrain _ f)
  · exact .refl s

/-- R68. -/
theorem keeps_partnershipEndAtFlow (failure : FailureCause) (s : State) (f : FlowId) :
    KeepsBuffers c s (State.partnershipEndAtFlow failure s f) := by
  unfold State.partnershipEndAtFlow
  split
  · exact keeps_closeFlow s f _ _ _
  · exact keeps_failFlow s f _ _ _
  · exact keeps_failFlow s f _ _ _
  · exact keeps_failFlow s f _ _ _
  · exact .refl s
  · exact .refl s

/-- R69. -/
theorem keeps_leaveAtFlow (s : State) (f : FlowId) : KeepsBuffers c s (s.leaveAtFlow f) := by
  unfold State.leaveAtFlow
  split
  · exact keeps_failFlow s f _ _ _
  · exact .refl s

theorem keeps_localLeaveAtFlow (s : State) (f : FlowId) : KeepsBuffers c s (s.localLeaveAtFlow f) := by
  unfold State.localLeaveAtFlow
  split
  · exact keeps_closeFlow s f _ _ _
  · exact .refl s

theorem keeps_discardPending (s : State) : KeepsBuffers c s s.discardPending := by
  have hm : ∀ (u : State) (f : FlowId),
      KeepsBuffers c u (u.modifyFlow f fun fl => { fl with pendingBlock := none }) :=
    fun _ _ => keeps_modifyFlow rfl rfl
  exact (keeps_eachFlow hm).trans (keeps_modifyLink rfl id)

/-! ## RESTART (R166, R167) -/

theorem abandon_framesOf (w : WireTransmitter) (a : Account) : w.abandon.framesOf a = 0 := by
  cases w <;> rfl

theorem initial_queuedOf (w : WireTransmitter) (up : Bool) (a : Account) :
    WirePort.queuedOf { WirePort.initial with transmitter := w, linkUp := up } a = 0 := by
  refine List.sum_eq_zero fun n hn => ?_
  obtain ⟨cls, -, rfl⟩ := List.mem_map.1 hn
  simp [WirePort.initial]

/-- R167: nothing is charged, and no storage holds a frame of an account. -/
theorem keeps_applyRestart (s : State) : KeepsBuffers c s s.applyRestart := by
  have hf : ∀ f, s.applyRestart.flow f = Flow.initial (s.profile f).rtoBase := (applyRestart_restarted s).flows
  have he : ∀ a, s.applyRestart.wire.egressOf a = 0 := fun a => by
    rw [egressOf_eq]
    exact congrArg₂ (· + ·) (initial_queuedOf _ _ a) (abandon_framesOf _ a)
  refine ⟨fun _ => poolLaws_of_initial rfl fun f => by rw [hf]; rfl, fun _ h => ⟨fun hg => ?_, fun f => ?_, ?_⟩⟩
  · change s.link.transmitter.abandon = _
    rw [h.slot hg]
    rfl
  · rw [he, hf]
    simp [State.held, State.applyRestart, Pool.initial, Flow.collectedBuffers, Flow.initial]
  · rw [he]
    cases ht : s.link.transmitter <;>
      simp [State.applyRestart, Pool.initial, LinkPort.bulkFrames, LinkTransmitter.abandon, ht]

/-- R166. -/
theorem keeps_responseDeparted (s : State) : KeepsBuffers c s s.responseDeparted := by
  unfold State.responseDeparted
  split
  · exact (keeps_modifyPart s _).trans (keeps_modifyEngine _ _)
  · exact keeps_applyRestart s

/-- R152. -/
theorem keeps_discardReplies (s : State) : KeepsBuffers c s s.discardReplies := by
  unfold State.discardReplies
  simp only
  split
  · exact (keeps_modifyEngine s _).trans (keeps_responseDeparted _)
  · exact keeps_modifyEngine s _

/-! ## The partnership (section 4) -/

theorem keeps_drawEpoch (s : State) : KeepsBuffers c s s.drawEpoch := keeps_of_eq ⟨rfl, rfl, rfl, rfl, rfl, rfl⟩

/-- R77. -/
theorem keeps_helloInJoining (s : State) (epoch : Epoch) (unit : Address) (seen : Option Epoch) :
    KeepsBuffers c s (s.helloInJoining epoch unit seen) := by
  unfold State.helloInJoining
  simp only
  split
  · exact (keeps_modifyPart s _).trans
      ((keeps_modifyPart _ _).trans ((keeps_changeLinkState _ _ _).trans (keeps_completeJoin _ _)))
  · exact keeps_modifyPart s _

/-- R80. -/
theorem keeps_partnerRestart (s : State) (epoch : Epoch) (unit : Address) (seen : Option Epoch) :
    KeepsBuffers c s (s.partnerRestart epoch unit seen) :=
  (keeps_changeLinkState s _ _).trans ((keeps_eachFlow (keeps_partnershipEndAtFlow _)).trans
    ((keeps_discardPending _).trans ((keeps_modifyPart _ _).trans (keeps_helloInJoining _ _ _ _))))

/-- R79. -/
theorem keeps_regain (s : State) : KeepsBuffers c s s.regain :=
  (keeps_changeLinkState s _ _).trans ((keeps_modifyPart _ _).trans (keeps_eachFlow keeps_regainAtFlow))

/-- R76 to R80. -/
theorem keeps_helloAtPartnership (s : State) (epoch : Epoch) (unit : Address) (seen : Option Epoch) :
    KeepsBuffers c s (s.helloAtPartnership epoch unit seen) := by
  unfold State.helloAtPartnership
  split
  · exact keeps_countDevice s _
  · split
    · exact keeps_countDevice s _
    · split
      · exact keeps_countDevice s _
      · exact keeps_helloInJoining s _ _ _
  · split
    · exact keeps_countDevice s _
    · unfold State.helloInPartnered
      split
      · exact (keeps_modifyPart s _).trans (keeps_modifyPart _ _)
      · exact keeps_partnerRestart s _ _ _
  · split
    · exact keeps_countDevice s _
    · unfold State.helloInLost
      split
      · split
        · exact keeps_regain s
        · exact keeps_modifyPart s _
      · exact keeps_partnerRestart s _ _ _

/-- R87. -/
theorem keeps_leaveAtPartnership (s : State) (epoch : Epoch) : KeepsBuffers c s (s.leaveAtPartnership epoch) := by
  have hends := (keeps_changeLinkState (c := c) s .silent .partnerLeft).trans
    ((keeps_eachFlow keeps_leaveAtFlow).trans (keeps_discardPending _))
  unfold State.leaveAtPartnership
  split
  · simp only [State.partnerLeft]
    exact hends.trans ((keeps_modifyPart _ _).trans (keeps_discardReplies _))
  · exact keeps_countDevice s _

/-- R86. -/
theorem keeps_localLeave (s : State) : KeepsBuffers c s s.localLeave := by
  have hends := (keeps_changeLinkState (c := c) s .silent .request).trans
    ((keeps_eachFlow keeps_localLeaveAtFlow).trans (keeps_discardPending _))
  simp only [State.localLeave]
  exact hends.trans ((keeps_modifyPart _ _).trans ((keeps_completeJoin _ _).trans (keeps_discardReplies _)))

/-- R74. -/
theorem keeps_partnershipGrantAt {s : State} (ho : c → s.link.granted) : KeepsBuffers c s s.partnershipGrantAt := by
  have hsend : ∀ (g : Partnership → Partnership) (b : LinkBlock) {owner : LinkOwner}, owner ≠ .bulkBuffer →
      KeepsBuffers c s ((s.modifyPart g).present b owner) := fun g b _ hb =>
    (keeps_modifyPart s g).trans (keeps_present (by exact ho) b hb)
  unfold State.partnershipGrantAt
  split
  · refine hsend _ _ ?_
    split <;> simp
  · split
    · exact hsend _ _ (by simp)
    · split
      · exact hsend _ _ (by simp)
      · exact .refl s
  · exact .refl s

/-- R84. -/
theorem keeps_joinExpired (s : State) : KeepsBuffers c s s.joinExpired :=
  (keeps_changeLinkState s _ _).trans
    ((keeps_modifyPart _ _).trans ((keeps_completeJoin _ _).trans (keeps_discardReplies _)))

/-- R81. -/
theorem keeps_silenceExpired (s : State) : KeepsBuffers c s s.silenceExpired :=
  (keeps_changeLinkState s _ _).trans ((keeps_modifyPart _ _).trans (keeps_eachFlow keeps_lossAtFlow))

/-- R83. -/
theorem keeps_holdExpired (s : State) : KeepsBuffers c s s.holdExpired := by
  have hends := (keeps_changeLinkState (c := c) s .joining .holdExpired).trans
    ((keeps_eachFlow (keeps_partnershipEndAtFlow .partnerLost)).trans (keeps_discardPending _))
  simp only [State.holdExpired]
  exact hends.trans ((keeps_drawEpoch _).trans (keeps_modifyPart _ _))

end Sys2Proof.Machine

namespace Sys2Proof.Machine

variable {c : Prop}

/-! ## Intake (R149 to R151) -/

theorem keeps_answerAtIntake (s : State) (origin : Origin) (frame : Frame) :
    KeepsBuffers c s (s.answerAtIntake origin frame) := by
  unfold State.answerAtIntake
  split
  · exact keeps_placeReply s _ _
  · exact keeps_countDevice s _

theorem keeps_enqueue (s : State) (r : Request) : KeepsBuffers c s (s.enqueue r) := by
  unfold State.enqueue
  split
  · exact keeps_modifyEngine s _
  · exact keeps_answerAtIntake s _ _

theorem keeps_admitRequest (s : State) (r : Request) : KeepsBuffers c s (s.admitRequest r) := by
  unfold State.admitRequest
  split
  · exact keeps_answerAtIntake s _ _
  · split
    · exact keeps_answerAtIntake s _ _
    · split
      · exact keeps_countDevice s _
      · exact keeps_enqueue s r

theorem keeps_intake (s : State) (origin : Origin) (v : FrameView) : KeepsBuffers c s (s.intake origin v) := by
  unfold State.intake
  split
  · exact keeps_countDevice s _
  · split
    · exact keeps_countDevice s _
    · exact keeps_admitRequest s _

/-! ## The classifier's actions (R2, R109 to R112) -/

/-- A buffer of the bulk account granted for a frame that some storage of it then holds. -/
theorem keeps_grantBulk {s u t : State} (h : s.grantBulk = some u) (hp : u.PoolLaws → t.PoolLaws)
    (hl : s.link.grantInSlot → t.link.grantInSlot)
    (ht : ∀ a, t.spare a = u.spare a - if a = .bulk then 1 else 0) : KeepsBuffers c s t := by
  refine keeps_of_spare (fun hs => hp (hs.grantBulk h)) (fun _ => hl) fun _ hz a => ?_
  rw [ht, spare_grantBulk h, hz a]
  omega

theorem grantBulk_link {s u : State} (h : s.grantBulk = some u) : u.link = s.link := by
  obtain ⟨-, armed, n, rfl⟩ := grantBulk_some h
  rfl

theorem spare_bulkQueue (s : State) {q : List BulkItem} {n : Int}
    (hq : (q.length : Int) = s.link.bulkQueue.length + n) (a : Account) :
    (s.modifyLink fun l => { l with bulkQueue := q }).spare a = s.spare a - if a = .bulk then n else 0 := by
  cases a with
  | flow f => simp only [reduceCtorEq, if_false, sub_zero]; rfl
  | bulk =>
    simp only [State.spare, State.charged, State.kept, LinkPort.bulkFrames, modifyLink_link, modifyLink_wire,
      modifyLink_pool, if_true]
    push_cast
    omega

/-- R111. -/
theorem keeps_bulkPath (s : State) (cls : PortClass) (frame : Frame) : KeepsBuffers c s (s.bulkPath cls frame) := by
  unfold State.bulkPath
  split
  · split
    · next u hu =>
      refine keeps_grantBulk hu (fun h => h.congr ⟨_, rfl⟩ rfl (fun _ => rfl) fun _ => rfl)
        (fun hs => by rw [← grantBulk_link hu] at hs; exact hs) (spare_bulkQueue u ?_)
      simp
    · exact keeps_countDevice s _
  · exact keeps_countDevice s _

theorem keeps_plainAction (s : State) (action : PlainAction) (frame : Frame) :
    KeepsBuffers c s (s.plainAction action frame) := by
  unfold State.plainAction
  split
  · exact .refl s
  · exact keeps_bulkPath s _ _

/-- R2. -/
theorem keeps_acceptFrame (s : State) (f : FlowId) (frame : Frame) : KeepsBuffers c s (s.acceptFrame f frame) := by
  unfold State.acceptFrame
  split
  · next u hu => exact (keeps_grant_enqueue hu frame).trans (keeps_countFlow _ f _)
  · exact keeps_countFlow s f _

/-- R108, R109. -/
theorem keeps_classifyFrame (s : State) (v : FrameView) (frame : Frame) :
    KeepsBuffers c s (s.classifyFrame v frame) := by
  unfold State.classifyFrame
  split
  · next i _ =>
    have hhit : KeepsBuffers c s (s.countHit i) := keeps_of_eq ⟨rfl, rfl, rfl, rfl, rfl, rfl⟩
    refine hhit.trans ?_
    unfold State.entryAction
    split
    · exact .refl _
    · exact keeps_bulkPath _ _ _
    · next f _ =>
      unfold State.offerFrame
      split
      · exact keeps_acceptFrame _ f frame
      · exact (keeps_countFlow _ f _).trans (keeps_plainAction _ _ _)
  · exact (keeps_countDevice s _).trans (keeps_plainAction _ _ _)

/-- R103, R105. -/
theorem keeps_receiveFrame (s : State) (received : List Byte) (bad : Bool) :
    KeepsBuffers c s (s.receiveFrame received bad) := by
  unfold State.receiveFrame
  split
  · simp only
    split
    · exact keeps_intake s _ _
    · exact keeps_classifyFrame s _ _
  · exact keeps_countDevice s _

/-! ## The wire transmitter (R145, R146) -/

/-- R145: what the transmitter sent is stored no more. -/
theorem spare_wireNext (s : State) (a : Account) :
    s.wireNext.spare a = s.spare a + s.wire.transmitter.framesOf a := by
  have hc : s.wireNext.charged a = s.charged a := by cases a <;> rfl
  have hk : s.wireNext.kept a = s.kept a := by cases a <;> rfl
  have he := egressOf_eq s.wire a
  simp only [State.spare, hc, hk, wireNext_egressOf]
  omega

theorem keeps_wireNext {s : State} (h : ∀ a, s.wire.transmitter.framesOf a = 0) : KeepsBuffers c s s.wireNext := by
  refine keeps_of_spare (fun hp => hp.congr ⟨_, rfl⟩ rfl (fun _ => rfl) fun _ => rfl) (fun _ hs => hs)
    fun _ hz a => ?_
  rw [spare_wireNext, hz a, h a]
  rfl

theorem responseDeparted_framesOf {s : State} {a : Account} (h : s.wire.transmitter.framesOf a = 0) :
    s.responseDeparted.wire.transmitter.framesOf a = 0 := by
  unfold State.responseDeparted
  split
  · exact h
  · exact abandon_framesOf _ a

/-- R98: the return of a buffer changes no port. -/
theorem releaseAccount_ports (s : State) (b : Account) :
    (s.releaseAccount b).link = s.link ∧ (s.releaseAccount b).wire = s.wire := by
  cases b with
  | flow f =>
    obtain ⟨armed, n, e⟩ := releaseFlow_eq s f 1
    simp only [State.releaseAccount, e, and_self]
  | bulk =>
    obtain ⟨armed, n, e⟩ := releaseBulk_eq s
    simp only [State.releaseAccount, e, and_self]

/-- R98, R100, R146: the frame of an account that has been sent releases its buffer. -/
theorem keeps_accountSent {s : State} {b : Account} {bytes : List Byte}
    (h : s.wire.transmitter = .sending (.account b) bytes) : KeepsBuffers c s (s.releaseAccount b).wireNext := by
  obtain ⟨hl, hw⟩ := releaseAccount_ports s b
  refine keeps_of_spare
    (fun hp => (hp.releaseAccount b).congr ⟨_, rfl⟩ rfl (fun _ => rfl) fun _ => rfl)
    (fun _ hs => ?_) fun _ hz a => ?_
  · change (s.releaseAccount b).link.grantInSlot
    rwa [hl]
  · have hb := charged_of_spare (hz b)
    have hone : s.wire.transmitter.framesOf b = 1 := by rw [h]; exact if_pos rfl
    rw [egressOf_eq] at hb
    rw [spare_wireNext, spare_releaseAccount (by omega), hz a, hw, h]
    simp only [WireTransmitter.framesOf, eq_comm (a := b)]
    split <;> rfl

/-- R146: the end of a transmission, and the frame taken next. -/
theorem keeps_wireEnd {s : State} {owner : WireOwner} {bytes : List Byte}
    (h : s.wire.transmitter = .sending owner bytes) : KeepsBuffers c s (s.wireEnd owner).wireNext := by
  unfold State.wireEnd
  cases owner with
  | account b => exact keeps_accountSent h
  | abandoned => exact keeps_wireNext fun a => by rw [h]; rfl
  | management =>
    have hm : KeepsBuffers c s (s.modifyWire fun w => { w with managementEgress := w.managementEgress.drop 1 }) :=
      keeps_modifyWire fun _ => rfl
    have h0 : ∀ a, (s.modifyWire fun w =>
        { w with managementEgress := w.managementEgress.drop 1 }).wire.transmitter.framesOf a = 0 := fun a => by
      rw [modifyWire_wire, h]
      rfl
    simp only
    split
    · exact (hm.trans (keeps_responseDeparted _)).trans (keeps_wireNext fun a => responseDeparted_framesOf (h0 a))
    · exact hm.trans (keeps_wireNext h0)

theorem keeps_wireDown (s : State) : KeepsBuffers c s s.wireDown := by
  have hm : KeepsBuffers c s (s.modifyWire fun w => { w with linkUp := false }) := keeps_modifyWire fun _ => rfl
  unfold State.wireDown
  simp only
  split
  · next h => exact hm.trans (keeps_wireEnd h)
  · exact hm

/-- R145. -/
theorem keeps_wiredLinkUp (s : State) :
    KeepsBuffers c s (s.modifyWire fun w => ({ w with linkUp := true } : WirePort).take) :=
  keeps_modifyWire (g := fun w => ({ w with linkUp := true } : WirePort).take) fun a => take_egressOf _ a

/-! ## The link transmitter (R113, R133, R140, R152) -/

theorem keeps_bulkTaken (s : State) : KeepsBuffers c s s.bulkTaken := keeps_modifyLink rfl id

/-- R113: the head of the link bulk queue is in transmission. -/
theorem keeps_sendBulk {s : State} (ho : c → s.link.granted) {item : BulkItem} {rest : List BulkItem}
    (hq : s.link.bulkQueue = item :: rest) (b : LinkBlock) :
    KeepsBuffers c s ((s.modifyLink fun l => { l with bulkQueue := rest }).present b .bulkBuffer) := by
  refine keeps_of_spare (fun hp => (hp.congr ⟨_, rfl⟩ rfl (fun _ => rfl) fun _ => rfl : State.PoolLaws
    (s.modifyLink fun l => { l with bulkQueue := rest })).present b _) (fun hc _ hg => ?_) fun hc hz a => ?_
  · obtain ⟨hnone, -⟩ := ho hc
    simp [present_grant, hnone] at hg
  · obtain ⟨-, hopen⟩ := ho hc
    rw [spare_present (by simpa using hopen), spare_bulkQueue s (n := -1) (by simp [hq]), hz a]
    simp only [and_true]
    split <;> rfl

/-- R113, R152. -/
theorem keeps_bulkGrantAt {s : State} (ho : c → s.link.granted) : KeepsBuffers c s s.bulkGrantAt := by
  unfold State.bulkGrantAt
  split
  · exact .refl s
  · split
    · exact (keeps_present ho _ (by simp)).trans (keeps_bulkTaken _)
    · split
      · next hq => exact (keeps_sendBulk ho hq _).trans (keeps_bulkTaken _)
      · exact .refl s

/-- R114, R115. -/
theorem keeps_bulkAtPath (s : State) (cls : PortClass) (frame : Frame) :
    KeepsBuffers c s (s.bulkAtPath cls frame) := by
  unfold State.bulkAtPath
  simp only
  split
  · exact keeps_intake s _ _
  · split
    · next u hu =>
      refine keeps_grantBulk hu (fun h => h.congr ⟨_, rfl⟩ rfl (fun _ => rfl) fun _ => rfl)
        (fun hs => by rw [← grantBulk_link hu] at hs; exact hs) fun a => ?_
      rw [spare_placeClass]
      simp only [eq_comm]
    · exact keeps_countDevice s _

/-- R133: a slot in the open, or none, takes the place of a block that held no bulk buffer. -/
theorem keeps_transmissionOver {s : State} {owner : LinkOwner} {bytes : List Byte}
    (h : s.link.transmitter = .sending owner bytes) (hb : owner ≠ .bulkBuffer) :
    KeepsBuffers c s (s.modifyLink (·.transmissionOver)) := by
  refine keeps_modifyLink ?_ fun hs hg => ?_
  · cases owner with
    | bulkBuffer => exact absurd rfl hb
    | plain | linkReply | restartLeave =>
      simp only [LinkPort.transmissionOver, LinkPort.bulkFrames, h]
      cases s.link.slotSignal <;> rfl
  · rw [hs hg] at h
    cases h

/-- R99, R140: the frame of the link bulk queue that has been sent releases its buffer. -/
theorem keeps_bulkSent {s : State} {bytes : List Byte} (h : s.link.transmitter = .sending .bulkBuffer bytes) :
    KeepsBuffers c s (s.modifyLink (·.transmissionOver)).releaseBulk := by
  have hfree : (s.modifyLink (·.transmissionOver)).link.bulkFrames + 1 = s.link.bulkFrames := by
    simp only [modifyLink_link, LinkPort.transmissionOver, LinkPort.bulkFrames, h]
    cases s.link.slotSignal <;> rfl
  have hspare : ∀ a, (s.modifyLink (·.transmissionOver)).spare a = s.spare a + if a = .bulk then 1 else 0 :=
    fun a => by
      cases a with
      | flow f => simp only [reduceCtorEq, if_false, add_zero]; rfl
      | bulk =>
        simp only [State.spare, State.charged, State.kept, modifyLink_pool, modifyLink_wire, if_true]
        omega
  refine keeps_of_spare (fun hp => (hp.congr ⟨_, rfl⟩ rfl (fun _ => rfl) fun _ => rfl :
    (s.modifyLink (·.transmissionOver)).PoolLaws).releaseBulk) (fun _ hs => ?_) fun _ hz a => ?_
  · have hl : (s.modifyLink (·.transmissionOver)).releaseBulk.link = s.link.transmissionOver :=
      (releaseAccount_ports _ .bulk).1
    rw [hl]
    intro hg
    rw [hs hg] at h
    cases h
  · have hb : s.pool.bulkHeld = s.link.bulkFrames + s.wire.egressOf .bulk := charged_of_spare (hz .bulk)
    rw [spare_releaseBulk (by rw [modifyLink_pool]; omega), hspare, hz a]
    split <;> rfl

/-- R140. -/
theorem keeps_linkEnd {s : State} {owner : LinkOwner} {bytes : List Byte}
    (h : s.link.transmitter = .sending owner bytes) :
    KeepsBuffers c s ((s.modifyLink (·.transmissionOver)).linkEnd owner) := by
  have hover := keeps_transmissionOver (c := c) h
  unfold State.linkEnd
  cases owner with
  | plain => exact hover (by simp)
  | bulkBuffer => exact keeps_bulkSent h
  | restartLeave => exact (hover (by simp)).trans (keeps_applyRestart _)
  | linkReply =>
    simp only
    split
    · exact (hover (by simp)).trans ((keeps_modifyEngine _ _).trans (keeps_responseDeparted _))
    · exact (hover (by simp)).trans (keeps_modifyEngine _ _)

theorem keeps_slotSignalled (s : State) : KeepsBuffers c s (s.modifyLink (·.slotSignalled)) := by
  refine keeps_modifyLink ?_ fun hs hg => ?_
  · unfold LinkPort.slotSignalled LinkPort.bulkFrames
    cases s.link.transmitter <;> simp
  · have hopen := hs hg
    simp [LinkPort.slotSignalled, hopen]

theorem keeps_slotWithdrawn (s : State) : KeepsBuffers c s (s.modifyLink (·.slotWithdrawn)) := by
  unfold LinkPort.slotWithdrawn
  refine keeps_modifyLink ?_ fun hs hg => ?_
  · split
    · next h => simp only [LinkPort.bulkFrames, h]
    · rfl
  · split at hg
    · cases hg
    · next h => exact absurd (hs hg) h

/-- R143. -/
theorem keeps_deliverBlock (s : State) (received : List Byte) (bad : Bool) :
    KeepsBuffers c s (s.deliverBlock received bad) := by
  have hroute : ∀ b : LinkBlock, (s.link.route b).bulkFrames = s.link.bulkFrames ∧
      (s.link.route b).grant = s.link.grant ∧ (s.link.route b).transmitter = s.link.transmitter := fun b => by
    unfold LinkPort.route
    split <;> exact ⟨rfl, rfl, rfl⟩
  unfold State.deliverBlock
  split
  · exact keeps_countDevice s _
  · split
    · exact keeps_countDevice s _
    · next b _ =>
      obtain ⟨hf, hg, ht⟩ := hroute b
      refine (keeps_countDevice s _).trans (keeps_modifyLink hf fun hs h => ?_)
      exact ht.trans (hs (hg ▸ h))

end Sys2Proof.Machine

namespace Sys2Proof.Machine

variable {c : Prop}

/-! ## The execution of requests (R156, R157, R173) -/

theorem keeps_respond (s : State) (r : Request) (response : ReplyItem) : KeepsBuffers c s (s.respond r response) :=
  (keeps_placeReply s _ _).trans ((keeps_modifyNotices _ _).trans (keeps_modifyEngine _ _))

theorem keeps_answerRequest (s : State) (r : Request) (a : Answer) : KeepsBuffers c s (s.answerRequest r a) :=
  (keeps_modifyEngine s _).trans (keeps_respond _ _ _)

theorem keeps_executeRequest {s : State} {r : Request} {work : Request → State → Answer × State}
    (hw : KeepsBuffers c s (work r s).2) : KeepsBuffers c s (s.executeRequest r work) := by
  unfold State.executeRequest
  split
  · exact keeps_respond s r _
  · exact hw.trans (keeps_answerRequest _ r _)

theorem keeps_begin (s : State) (r : Request) : KeepsBuffers c s (s.begin r) := keeps_modifyEngine s _

theorem keeps_bodyless {s : State} {work : Answer × State} (r : Request) (hw : KeepsBuffers c s work.2) :
    KeepsBuffers c s (bodyless r s work).2 := by
  unfold bodyless
  split
  · exact hw
  · exact .refl s

theorem keeps_withFlow {s : State} {work : FlowId → Answer × State} (r : Request)
    (hw : ∀ f, KeepsBuffers c s (work f).2) : KeepsBuffers c s (withFlow r s work).2 := by
  unfold withFlow
  split
  · exact .refl s
  · exact hw _

theorem keeps_bindWork (r : Request) (s : State) : KeepsBuffers c s (bindWork r s).2 := by
  have hb : ∀ lease, KeepsBuffers c s (s.bindTo r lease) := fun _ => keeps_modifyEngine s _
  unfold bindWork bindWith
  simp only
  split
  · split
    · exact hb _
    · split
      · exact hb _
      · exact .refl s
  · exact .refl s

theorem keeps_readTableWork (r : Request) (s : State) : KeepsBuffers c s (readTableWork r s).2 := by
  unfold readTableWork
  simp only
  split
  · split <;> exact .refl s
  · exact .refl s

/-! ### The tables (R123 to R130) -/

/-- R119: a change of the shadow bank changes no profile in force. -/
theorem keeps_setShadow (s : State) (b : Bank) :
    KeepsBuffers c s ({ s with tables := s.tables.setShadow b } : State) :=
  State.SameBuffers.keeps {
    pool := ⟨_, rfl⟩
    bulkCap := rfl
    profile := fun f => congrArg (fun k : Bank => readAt k.profiles f) (setShadow_active s.tables b).2
    inUse := fun _ => rfl
    collected := fun _ => rfl
    egress := fun _ => rfl
    bulkFrames := rfl
    slot := id }

theorem keeps_writeTableWork (r : Request) (s : State) : KeepsBuffers c s (writeTableWork r s).2 := by
  unfold writeTableWork
  simp only
  split
  · split
    · unfold writeShadow
      split
      · exact .refl s
      · exact keeps_setShadow s _
    · exact .refl s
  · exact .refl s

/-- R129: the structural check keeps the reserve and the cap of every flow that is not CLOSED or that holds a
buffer. -/
theorem reserve_cap_of_unchanged {s : State} {f : FlowId} (h : s.structureChanges f = false)
    (hs : (s.flow f).state ≠ .closed ∨ 0 < s.held f) :
    (s.commitBanks.profile f).reserve = (s.profile f).reserve ∧
      (s.commitBanks.profile f).cap = (s.profile f).cap := by
  have hp : s.commitBanks.profile f = readAt s.tables.shadowBank.profiles f := rfl
  have hu : (readAt s.tables.shadowBank.profiles f).sameStructure (s.profile f) = true := by
    rcases hs with hs | hs <;> simpa [State.structureChanges, hs] using h
  simp only [Profile.sameStructure, Bool.and_eq_true, beq_iff_eq] at hu
  obtain ⟨⟨-, hres⟩, hcap⟩ := hu
  exact hp ▸ ⟨hres, hcap⟩

/-- R129, R130: the banks change places under flows whose reserves and caps stay. -/
theorem State.PoolLaws.commitBanks {s : State} (h : s.PoolLaws) (hc : s.firstStructureChange = none) :
    s.commitBanks.PoolLaws := by
  have hu : ∀ f, s.structureChanges f = false := fun f => by
    simpa using List.find?_eq_none.1 hc f (List.mem_finRange f)
  refine ⟨h.conserved, h.covered, fun f => ?_, h.bulkCapped, fun f => ?_⟩
  · by_cases hheld : 0 < s.held f
    · obtain ⟨-, hcap⟩ := reserve_cap_of_unchanged (hu f) (.inr hheld)
      exact hcap ▸ h.capped f
    · have h0 : s.commitBanks.held f = 0 := by
        change s.held f = 0
        omega
      omega
  · have hold := h.reserved f
    change readAt s.pool.reservation f = if (s.flow f).inUse then (s.commitBanks.profile f).reserve else 0
    split
    · next hin =>
      obtain ⟨hres, -⟩ := reserve_cap_of_unchanged (hu f) (.inl fun hs => by simp [Flow.inUse, hs] at hin)
      rw [hold, if_pos hin, hres]
    · next hin => rw [hold, if_neg hin]

theorem keeps_commitWork (r : Request) (s : State) : KeepsBuffers c s (commitWork r s).2 := by
  unfold commitWork
  split
  · unfold commitBank
    split
    · exact .refl s
    · split
      · exact .refl s
      · split
        · exact .refl s
        · next hc => exact ⟨fun h => h.commitBanks hc, fun _ h => ⟨h.slot, h.flows, h.bulk⟩⟩
  · exact .refl s

/-! ### Flows and the partnership (R52, R57, R62, R64, R73) -/

/-- R52. -/
theorem keeps_flowOpenAt {s : State} {f : FlowId}
    (h0 : c → (s.flow f).state = .closed → (s.flow f).collectedBuffers = 0) (tag : Tag) :
    KeepsBuffers c s (flowOpenAt s f tag).2 := by
  unfold flowOpenAt
  split
  · exact .refl s
  · split
    · exact .refl s
    · next hs =>
      have hclosed : (s.flow f).state = .closed := not_not.1 hs
      split
      · exact .refl s
      · split
        · exact .refl s
        · split
          · exact .refl s
          · next hu => exact keeps_takeOpening hu hclosed (fun hc => h0 hc hclosed) tag

/-- R57. -/
theorem keeps_flowCloseAt (s : State) (f : FlowId) (tag : Tag) : KeepsBuffers c s (flowCloseAt s f tag).2 := by
  unfold flowCloseAt
  split
  · next hs =>
    have hm : KeepsBuffers c s (s.modifyFlow f fun fl =>
        { fl with drainOrigin := some .localEnd, deferred := some ⟨.flowClose, tag⟩ }) := keeps_modifyFlow rfl rfl
    refine hm.trans ((keeps_changeFlowState ?_).trans (keeps_completeDrain _ f))
    simp [Flow.inUse, hs]
  all_goals exact .refl s

/-- R62. -/
theorem keeps_flowAbortAt (s : State) (f : FlowId) : KeepsBuffers c s (flowAbortAt s f).2 := by
  unfold flowAbortAt State.abortFlow
  simp only
  split
  · split
    · exact (keeps_makePending s f _).trans (keeps_closeFlow _ f _ _ _)
    · exact keeps_closeFlow s f _ _ _
  · exact .refl s

/-- R64. -/
theorem keeps_flowResetAt (s : State) (f : FlowId) : KeepsBuffers c s (flowResetAt s f).2 := by
  unfold flowResetAt
  split
  · exact keeps_closeFlow s f _ _ _
  · exact .refl s

/-- R73. -/
theorem keeps_joinAt (s : State) (tag : Tag) : KeepsBuffers c s (joinAt s tag).2 := by
  unfold joinAt
  split
  · exact (keeps_drawEpoch s).trans ((keeps_modifyPart _ _).trans (keeps_changeLinkState _ _ _))
  all_goals exact .refl s

/-! ### Counters, parameters, notices and RESTART -/

theorem keeps_readCountersWork (r : Request) (s : State) : KeepsBuffers c s (readCountersWork r s).2 := by
  unfold readCountersWork
  simp only
  split
  · split
    · unfold readDeviceCounters
      simp only
      split
      · exact keeps_countDevice s fun _ => .zero
      · exact .refl s
    · split
      · unfold readFlowCounters
        simp only
        split
        · exact keeps_countFlow s _ _
        · exact .refl s
      · exact .refl s
    · exact .refl s
  · exact .refl s

/-- R163: a bulk cap below the bulk held count is refused. -/
theorem keeps_setParamsWork (r : Request) (s : State) : KeepsBuffers c s (setParamsWork r s).2 := by
  unfold setParamsWork setParamsWith
  simp only
  split
  · split
    · exact .refl s
    · split
      · exact .refl s
      · split
        · exact .refl s
        · next hcap =>
          refine ⟨fun h => ⟨h.conserved, h.covered, h.capped, ?_, h.reserved⟩,
            fun _ h => ⟨h.slot, h.flows, h.bulk⟩⟩
          have hold := h.bulkCapped
          by_cases hb : hasBit (byteAt r.body 0) 6 = true
          · exact Nat.le_of_not_lt fun hlt => hcap ⟨hb, hlt⟩
          · simpa [Params.withArea, carried, hb] using hold
  · exact .refl s

theorem keeps_setNoticesWork (r : Request) (s : State) : KeepsBuffers c s (setNoticesWork r s).2 := by
  unfold setNoticesWork
  simp only
  split
  · dsimp only
    exact keeps_modifyNotices s _
  · exact .refl s

/-- R165, R166. -/
theorem keeps_executeRestart (s : State) (r : Request) : KeepsBuffers c s (s.executeRestart r) := by
  have hm : KeepsBuffers c s (s.modifyEngine fun e => { e with state := .awaitResponse }) := keeps_modifyEngine s _
  have hd : KeepsBuffers c s (s.executeRequest r restartWork) := keeps_executeRequest (keeps_bodyless r hm)
  unfold State.executeRestart
  simp only
  split
  · exact hd.trans (keeps_responseDeparted _)
  · exact hd

/-! ## Every command (R92 to R97) -/

/-- What the accounts of a command lean on in the state in which it begins: the window laws, and a grant in
transit only in an open slot. -/
def State.Prepared (s : State) : Prop := s.WindowLaws ∧ s.link.grantInSlot

theorem State.Prepared.collectedBuffers {s : State} (h : s.Prepared) {f : FlowId} (hs : (s.flow f).state = .closed) :
    (s.flow f).collectedBuffers = 0 := by
  obtain ⟨hw, -⟩ := h
  obtain ⟨hq, hwin, -, hreo, -⟩ := (hw.flows f).atRest (by simp [Flow.inUse, hs])
  simp [Flow.collectedBuffers, hq, hwin, hreo]

/-- R4: no sequence stands twice in a window. -/
theorem State.Prepared.window_nodup {s : State} (h : s.Prepared) (f : FlowId) :
    ((s.flow f).window.map (·.seq)).Nodup := by
  obtain ⟨hw, -⟩ := h
  cases hu : (s.flow f).inUse with
  | true => exact ((hw.flows f).window hu).nodup (hw.window_le f)
  | false =>
    obtain ⟨-, hwin, -⟩ := (hw.flows f).atRest hu
    simp [hwin]

/-- The state after an outcome keeps the laws of the buffers. -/
def KeepsNext (premise : Prop) (s : State) (o : Host.Outcome State Fault Refusal) : Prop :=
  ∀ t, o = .next t → KeepsBuffers premise s t

theorem keepsNext_same (s : State) : KeepsNext c s (.next s) := fun t e => by
  cases e
  exact .refl s

theorem keepsNext_finish {s u : State} (h : KeepsBuffers c s u) : KeepsNext c s (.next u.finish) := fun t e => by
  cases e
  exact h.trans (keeps_finish u)

/-- A happening that has an effect under a condition only. -/
theorem keepsNext_ite {s u : State} {p : Prop} [Decidable p] (h : p → KeepsBuffers c s u) :
    KeepsNext c s (if p then .next u.finish else .next s) := by
  split
  · next hp => exact keepsNext_finish (h hp)
  · exact keepsNext_same s

/-- R143, R88: a block taken from the blocks routed to its destination. -/
theorem keepsNext_accepted {s : State} {g : LinkPort → LinkPort} {epoch : Epoch} {d : State → State}
    (hb : (g s.link).bulkFrames = s.link.bulkFrames) (hs : s.link.grantInSlot → (g s.link).grantInSlot)
    (hd : KeepsBuffers c (s.modifyLink g).restartSilence (d (s.modifyLink g).restartSilence)) :
    KeepsNext c s (.next ((s.modifyLink g).ifAccepted epoch d).finish) :=
  keepsNext_finish ((keeps_modifyLink hb hs).trans (keeps_ifAccepted hd))

theorem keepsNext_flowBlock {s : State} {epoch : Epoch} {d : State → State}
    (hd : KeepsBuffers c s.dropFlowBlock.restartSilence (d s.dropFlowBlock.restartSilence)) :
    KeepsNext c s (.next (s.dropFlowBlock.ifAccepted epoch d).finish) :=
  keepsNext_accepted rfl id hd

/-- R139: a grant in transit arrives. -/
theorem keepsNext_grant {s : State} {d : State → State}
    (hd : KeepsBuffers c (s.modifyLink fun l => { l with grant := none })
      (d (s.modifyLink fun l => { l with grant := none }))) :
    KeepsNext c s (.next (d (s.modifyLink fun l => { l with grant := none })).finish) :=
  keepsNext_finish ((keeps_takeGrant s).trans hd)

/-- R156. -/
theorem keepsNext_execute {s : State} {named : Byte → Bool} {work : Request → State → Answer × State}
    (hw : ∀ r, KeepsBuffers c (s.begin r) (work r (s.begin r)).2) : KeepsNext c s (s.execute named work) := by
  unfold State.execute
  split
  · exact keepsNext_same s
  · next r _ =>
    split
    · exact keepsNext_finish ((keeps_begin s r).trans (keeps_executeRequest (hw r)))
    · exact keepsNext_same s

theorem powerOn_keeps (s : State) : KeepsBuffers c s (State.powerOn s.unitId s.epochDraws s.pending) := by
  have hf : ∀ f, (State.powerOn s.unitId s.epochDraws s.pending).flow f = Flow.initial 100 :=
    fun f => by simp [State.powerOn, State.flow]
  have he : ∀ a, (State.powerOn s.unitId s.epochDraws s.pending).wire.egressOf a = 0 := fun a => by
    rw [egressOf_eq]
    exact congrArg₂ (· + ·) (initial_queuedOf .idle false a) rfl
  refine ⟨fun _ => poolLaws_of_initial rfl fun f => by rw [hf]; rfl, fun _ _ => ⟨fun hg => ?_, fun f => ?_, ?_⟩⟩
  · cases hg
  · rw [hf, he]
    simp [State.held, State.powerOn, Pool.initial, Flow.collectedBuffers, Flow.initial]
  · rw [he]
    rfl

theorem keeps_tick (s : State) : KeepsBuffers c s s.tick := by
  have hf : ∀ f, s.tick.flow f = (s.flow f).tick := fun f => by simp [State.tick, State.flow]
  obtain ⟨ht, hw, hl⟩ : s.tick.tables = s.tables ∧ s.tick.wire = s.wire ∧ s.tick.link = s.link := by
    simp only [State.tick, and_self]
  have hflow : ∀ fl : Flow, fl.tick.inUse = fl.inUse ∧ fl.tick.collectedBuffers = fl.collectedBuffers := fun fl => by
    unfold Flow.tick
    split <;> exact ⟨rfl, rfl⟩
  exact State.SameBuffers.keeps {
    pool := ⟨_, rfl⟩
    bulkCap := rfl
    profile := fun f => by simp only [State.profile, ht]
    inUse := fun f => (congrArg Flow.inUse (hf f)).trans (hflow _).1
    collected := fun f => (congrArg Flow.collectedBuffers (hf f)).trans (hflow _).2
    egress := fun a => by rw [hw]
    bulkFrames := by rw [hl]
    slot := fun h => by rw [hl]; exact h }

/-! ### The link port's commands -/

theorem keepsNext_dataGrant (s : State) : KeepsNext s.Prepared s (execDataGrant s) := by
  unfold execDataGrant
  split
  · next f cls hg =>
    exact keepsNext_grant (d := (·.dataGrantAt f cls)) (keeps_dataGrantAt cls
      (fun h => granted_of_grantInSlot h.2 hg) fun h => h.window_nodup f)
  · exact keepsNext_same s

theorem keepsNext_statusGrant (s : State) : KeepsNext s.Prepared s (execStatusGrant s) := by
  unfold execStatusGrant
  split
  · next f hg =>
    exact keepsNext_grant (d := (·.statusGrantAt f)) (keeps_statusGrantAt f fun h => granted_of_grantInSlot h.2 hg)
  · exact keepsNext_same s

theorem keepsNext_lifecycleGrant (s : State) : KeepsNext s.Prepared s (execLifecycleGrant s) := by
  unfold execLifecycleGrant
  split
  · next f hg =>
    exact keepsNext_grant (d := (·.lifecycleGrantAt f))
      (keeps_lifecycleGrantAt f fun h => granted_of_grantInSlot h.2 hg)
  · exact keepsNext_same s

theorem keepsNext_partnershipGrant (s : State) : KeepsNext s.Prepared s (execPartnershipGrant s) := by
  unfold execPartnershipGrant
  split
  · next hg =>
    exact keepsNext_grant (d := (·.partnershipGrantAt))
      (keeps_partnershipGrantAt fun h => granted_of_grantInSlot h.2 hg)
  · exact keepsNext_same s

theorem keepsNext_bulkGrant (s : State) : KeepsNext s.Prepared s (execBulkGrant s) := by
  unfold execBulkGrant
  split
  · next hg =>
    exact keepsNext_grant (d := (·.bulkGrantAt)) (keeps_bulkGrantAt fun h => granted_of_grantInSlot h.2 hg)
  · exact keepsNext_same s

theorem keepsNext_linkTransmissionEnd (s : State) : KeepsNext c s (execLinkTransmissionEnd s) := by
  unfold execLinkTransmissionEnd
  split
  · next h => exact keepsNext_finish (keeps_linkEnd h)
  all_goals exact keepsNext_same s

theorem keepsNext_wireTransmissionEnd (s : State) : KeepsNext c s (execWireTransmissionEnd s) := by
  unfold execWireTransmissionEnd
  split
  · next h => exact keepsNext_finish (keeps_wireEnd h)
  · exact keepsNext_same s

/-! ### Blocks received -/

theorem keepsNext_helloReceived (s : State) : KeepsNext c s (execHelloReceived s) := by
  unfold execHelloReceived
  split
  · exact keepsNext_finish ((keeps_modifyLink rfl id).trans (keeps_helloAtPartnership _ _ _ _))
  · exact keepsNext_same s

theorem keepsNext_keepaliveReceived (s : State) : KeepsNext c s (execKeepaliveReceived s) := by
  unfold execKeepaliveReceived
  split
  · exact keepsNext_accepted rfl id (.refl _)
  · exact keepsNext_same s

theorem keepsNext_leaveReceived (s : State) : KeepsNext c s (execLeaveReceived s) := by
  unfold execLeaveReceived
  split
  · exact keepsNext_finish ((keeps_modifyLink rfl id).trans (keeps_leaveAtPartnership _ _))
  · exact keepsNext_same s

theorem keepsNext_openReceived (s : State) : KeepsNext s.Prepared s (execOpenReceived s) := by
  unfold execOpenReceived
  split
  · exact keepsNext_flowBlock (keeps_openAtFlow (fun h hs => h.collectedBuffers hs) _ _)
  · exact keepsNext_same s

theorem keepsNext_openAckReceived (s : State) : KeepsNext c s (execOpenAckReceived s) := by
  unfold execOpenAckReceived
  split
  · exact keepsNext_flowBlock (keeps_openAckAtFlow _ _ _)
  · exact keepsNext_same s

theorem keepsNext_closeReceived (s : State) : KeepsNext c s (execCloseReceived s) := by
  unfold execCloseReceived
  split
  · exact keepsNext_flowBlock (keeps_closeAtFlow _ _)
  · exact keepsNext_same s

theorem keepsNext_closeAckReceived (s : State) : KeepsNext c s (execCloseAckReceived s) := by
  unfold execCloseAckReceived
  split
  · exact keepsNext_flowBlock (keeps_closeAckAtFlow _ _)
  · exact keepsNext_same s

theorem keepsNext_abortReceived (s : State) : KeepsNext c s (execAbortReceived s) := by
  unfold execAbortReceived
  split
  · exact keepsNext_flowBlock (keeps_abortAtFlow _ _)
  · exact keepsNext_same s

theorem keepsNext_dataReceived (s : State) : KeepsNext c s (execDataReceived s) := by
  unfold execDataReceived
  split
  · exact keepsNext_flowBlock (keeps_dataAtFlow _ _ _ _)
  · exact keepsNext_same s

theorem keepsNext_advanceReceived (s : State) : KeepsNext c s (execAdvanceReceived s) := by
  unfold execAdvanceReceived
  split
  · exact keepsNext_flowBlock (keeps_advanceAtFlow _ _ _)
  · exact keepsNext_same s

theorem keepsNext_statusReceived (s : State) : KeepsNext c s (execStatusReceived s) := by
  unfold execStatusReceived
  split
  · exact keepsNext_flowBlock (keeps_statusAtFlow _ _ _ _ _)
  · exact keepsNext_same s

theorem keepsNext_bulkReceived (s : State) : KeepsNext c s (execBulkReceived s) := by
  unfold execBulkReceived
  split
  · exact keepsNext_accepted rfl id (keeps_bulkAtPath _ _ _)
  · exact keepsNext_same s

/-! ### Timers and RESTART -/

theorem keepsNext_retransmissionTimerExpiry (f : FlowId) (s : State) :
    KeepsNext c s (execRetransmissionTimerExpiry f s) := by
  have hu : ((s.flow f).retxExpired (s.profile f)).inUse = (s.flow f).inUse := by
    simp only [Flow.inUse, retxExpired_state]
  exact keepsNext_ite fun _ => keeps_modifyFlow hu (retxExpired_collectedBuffers _ _)

theorem keepsNext_ackDelayTimerExpiry (f : FlowId) (s : State) : KeepsNext c s (execAckDelayTimerExpiry f s) :=
  keepsNext_ite fun _ =>
    keeps_modifyFlow (g := fun fl => { fl with statusPending := true, ackTimer := .stopped }) rfl rfl

theorem keepsNext_restart (s : State) : KeepsNext c s (Machine.execRestart s) := by
  unfold Machine.execRestart
  split
  · exact keepsNext_same s
  · next r _ =>
    split
    · exact keepsNext_finish ((keeps_begin s r).trans (keeps_executeRestart _ r))
    · exact keepsNext_same s

/-! ### The command and the step -/

/-- R92 to R97: each command keeps the laws of the pool, and with a grant in transit only in an open slot and
whole windows it keeps the accounts. -/
theorem exec_keepsBuffers (i : Instr) (s : State) : KeepsNext s.Prepared s (exec i s) := by
  cases i with
  | powerOnReset => exact fun t e => by cases e; exact powerOn_keeps s
  | wireFrameReception received bad => exact keepsNext_finish (keeps_receiveFrame s received bad)
  | linkBlockDelivery received bad => exact keepsNext_finish (keeps_deliverBlock s received bad)
  | slotSignalled => exact keepsNext_finish (keeps_slotSignalled s)
  | slotWithdrawn => exact keepsNext_finish (keeps_slotWithdrawn s)
  | wiredLinkUp => exact keepsNext_finish (keeps_wiredLinkUp s)
  | wiredLinkDown => exact keepsNext_finish (keeps_wireDown s)
  | helloReceived => exact keepsNext_helloReceived s
  | keepaliveReceived => exact keepsNext_keepaliveReceived s
  | leaveReceived => exact keepsNext_leaveReceived s
  | openReceived => exact keepsNext_openReceived s
  | openAckReceived => exact keepsNext_openAckReceived s
  | closeReceived => exact keepsNext_closeReceived s
  | closeAckReceived => exact keepsNext_closeAckReceived s
  | abortReceived => exact keepsNext_abortReceived s
  | dataReceived => exact keepsNext_dataReceived s
  | advanceReceived => exact keepsNext_advanceReceived s
  | statusReceived => exact keepsNext_statusReceived s
  | bulkReceived => exact keepsNext_bulkReceived s
  | dataGrant => exact keepsNext_dataGrant s
  | statusGrant => exact keepsNext_statusGrant s
  | lifecycleGrant => exact keepsNext_lifecycleGrant s
  | partnershipGrant => exact keepsNext_partnershipGrant s
  | bulkGrant => exact keepsNext_bulkGrant s
  | linkTransmissionEnd => exact keepsNext_linkTransmissionEnd s
  | wireTransmissionEnd => exact keepsNext_wireTransmissionEnd s
  | retransmissionTimerExpiry f => exact keepsNext_retransmissionTimerExpiry f s
  | closeSeriesExpiry f => exact keepsNext_ite fun _ => keeps_closeSeriesExpired s f
  | openTimerExpiry f => exact keepsNext_ite fun _ => keeps_openTimerExpired s f
  | ackDelayTimerExpiry f => exact keepsNext_ackDelayTimerExpiry f s
  | joinTimerExpiry => exact keepsNext_ite fun _ => keeps_joinExpired s
  | helloTimerExpiry => exact keepsNext_ite fun _ => keeps_modifyPart s _
  | silenceTimerExpiry => exact keepsNext_ite fun _ => keeps_silenceExpired s
  | keepaliveTimerExpiry => exact keepsNext_ite fun _ => keeps_modifyPart s _
  | holdTimerExpiry => exact keepsNext_ite fun _ => keeps_holdExpired s
  | leaseTimerExpiry => exact keepsNext_ite fun _ => keeps_modifyEngine s _
  | restart => exact keepsNext_restart s
  | identify =>
    exact keepsNext_execute (named := (· == codeIdentify)) (work := identifyWork) fun r =>
      keeps_bodyless r (.refl _)
  | bind =>
    exact keepsNext_execute (named := (· == codeBind)) (work := bindWork) fun r =>
      keeps_bindWork r _
  | unbind =>
    refine keepsNext_execute (named := (· == codeUnbind)) (work := unbindWork) fun r => keeps_bodyless r ?_
    exact keeps_modifyEngine _ fun e => { e with binding := .unbound }
  | readTable =>
    exact keepsNext_execute (named := (· == codeReadTable)) (work := readTableWork) fun r =>
      keeps_readTableWork r _
  | writeTable =>
    exact keepsNext_execute (named := (· == codeWriteTable)) (work := writeTableWork) fun r =>
      keeps_writeTableWork r _
  | copyBank =>
    exact keepsNext_execute (named := (· == codeCopyBank)) (work := copyBankWork) fun r =>
      keeps_bodyless r (keeps_setShadow _ _)
  | commit =>
    exact keepsNext_execute (named := (· == codeCommit)) (work := commitWork) fun r =>
      keeps_commitWork r _
  | flowOpen =>
    exact keepsNext_execute (named := (· == codeFlowOpen)) (work := flowOpenWork) fun r => keeps_withFlow r fun f =>
      keeps_flowOpenAt (fun h hs => h.collectedBuffers hs) _
  | flowClose =>
    exact keepsNext_execute (named := (· == codeFlowClose)) (work := flowCloseWork) fun r =>
      keeps_withFlow r fun f => keeps_flowCloseAt _ f _
  | flowAbort =>
    exact keepsNext_execute (named := (· == codeFlowAbort)) (work := flowAbortWork) fun r =>
      keeps_withFlow r fun f => keeps_flowAbortAt _ f
  | flowReset =>
    exact keepsNext_execute (named := (· == codeFlowReset)) (work := flowResetWork) fun r =>
      keeps_withFlow r fun f => keeps_flowResetAt _ f
  | flowStatus =>
    exact keepsNext_execute (named := (· == codeFlowStatus)) (work := flowStatusWork) fun r =>
      keeps_withFlow r fun f => .refl _
  | linkJoin =>
    exact keepsNext_execute (named := (· == codeLinkJoin)) (work := linkJoinWork) fun r =>
      keeps_bodyless r (keeps_joinAt _ _)
  | linkLeave =>
    refine keepsNext_execute (named := (· == codeLinkLeave)) (work := linkLeaveWork) fun r => keeps_bodyless r ?_
    simp only
    split
    · exact .refl _
    · exact keeps_localLeave _
  | linkStatus =>
    exact keepsNext_execute (named := (· == codeLinkStatus)) (work := linkStatusWork) fun r =>
      keeps_bodyless r (.refl _)
  | readCounters =>
    exact keepsNext_execute (named := (· == codeReadCounters)) (work := readCountersWork) fun r =>
      keeps_readCountersWork r _
  | setParams =>
    exact keepsNext_execute (named := (· == codeSetParams)) (work := setParamsWork) fun r =>
      keeps_setParamsWork r _
  | readParams =>
    exact keepsNext_execute (named := (· == codeReadParams)) (work := readParamsWork) fun r =>
      keeps_bodyless r (.refl _)
  | setNotices =>
    exact keepsNext_execute (named := (· == codeSetNotices)) (work := setNoticesWork) fun r =>
      keeps_setNoticesWork r _
  | unknownRequest =>
    exact keepsNext_execute (named := fun code => !requestCodes.contains code)
      (work := fun _ s => (.plain .badRequest, s)) fun r => .refl _

theorem step_keepsBuffers {s t : State} (e : step s = .next t) : KeepsBuffers s.Prepared s t := by
  unfold step at e
  split at e
  · cases e
    exact keeps_tick s
  · next i rest _ =>
    have hpending : KeepsBuffers s.Prepared s (s.withPending rest) := keeps_of_eq ⟨rfl, rfl, rfl, rfl, rfl, rfl⟩
    have hprepared : s.Prepared → (s.withPending rest).Prepared := fun ⟨hw, hs⟩ => ⟨hw.congr ⟨rfl, rfl⟩, hs⟩
    have hexec := exec_keepsBuffers i (s.withPending rest) t e
    exact hpending.trans ⟨hexec.pool, fun hp => hexec.accounts (hprepared hp)⟩

end Sys2Proof.Machine

section
open Sys2Proof Sys2Proof.Machine

/-- Settles O7: each command, and the passage of time, keeps the laws of the pool. -/
theorem poolLawsKept : Obligations.PoolLawsKept := fun _ _ h e => (step_keepsBuffers e).pool h

/-- Settles O8: each command, and the passage of time, keeps the accounts of a state whose windows are whole. -/
theorem buffersAccountedKept : Obligations.BuffersAccountedKept := fun _ _ hw h e =>
  (step_keepsBuffers e).accounts ⟨hw, h.slot⟩ h

end

namespace Sys2Proof.Machine

/-! ## The wire transmitter's ends (R98, R99, R145, R146) -/

/-- R98: the buffer returned is the same whatever the wire port was. -/
theorem State.BufferReturned.of_wire {s t : State} {w : WirePort} {a : Account}
    (h : State.BufferReturned { s with wire := w } t a) : s.BufferReturned t a where
  free := h.free
  held := h.held
  bulkHeld := h.bulkHeld
  reservation := h.reservation
  raises := h.raises.congr rfl rfl rfl rfl rfl

/-- R145: the transmitter becomes IDLE and the next frame is taken, and nothing else changes. -/
theorem wireNext_takesNext (s : State) : ∃ w, s.wireNext = { s with wire := w } ∧ s.wire.TakesNext w :=
  ⟨_, rfl, take_takesNext s.wire⟩

/-- R99, R100, R145: a frame of an account has been sent, and its buffer returns. -/
theorem accountSent_returned {s : State} {a : Account} (h : s.HoldsFor a) (he : s.engine.executing = none) :
    s.BufferReturned (s.wireEnd (.account a)).wireNext a ∧ s.wire.TakesNext (s.wireEnd (.account a)).wireNext.wire ∧
      s.Unchanged [.pool, .wire, .notices] (s.wireEnd (.account a)).wireNext := by
  obtain ⟨p, n, e, hret⟩ := releaseAccount_returned h he
  obtain ⟨w, hw, htakes⟩ := wireNext_takesNext ({ s with pool := p, notices := n } : State)
  have hend : (s.wireEnd (.account a)).wireNext = { s with pool := p, notices := n, wire := w } :=
    (congrArg State.wireNext e).trans hw
  rw [hend]
  refine ⟨hret w, htakes, ?_⟩
  constructor <;> simp

/-- R146: a management frame other than the RESTART response has been sent. -/
theorem wireEnd_management {s : State} {sent : ReplyItem} {rest : List ReplyItem}
    (h : s.wire.managementEgress = sent :: rest) (hr : sent.restartResponse = false) :
    s.wireEnd .management = { s with wire := { s.wire with managementEgress := rest } } := by
  simp [State.wireEnd, State.modifyWire, h, hr]

/-- What follows a happening depends on the state that it leaves. -/
theorem next_finish_congr {s t : State} (h : s = t) :
    (.next s.finish : Host.Outcome State Fault Refusal) = .next t.finish := by rw [h]

theorem exec_wiredLinkUp (s : State) : exec .wiredLinkUp s =
    .next (State.finish { s with wire := ({ s.wire with linkUp := true } : WirePort).take }) := rfl

theorem exec_wiredLinkDown_idle {s : State} (h : s.wire.transmitter = .idle) :
    exec .wiredLinkDown s = .next (State.finish { s with wire := { s.wire with linkUp := false } }) := by
  have hdown : s.wireDown = { s with wire := { s.wire with linkUp := false } } := by
    unfold State.wireDown
    simp only
    split
    · next ht => simp [h] at ht
    · rfl
  exact next_finish_congr hdown

end Sys2Proof.Machine

section
open Sys2Proof Sys2Proof.Machine

/-- Settles O21: the end of each owner's frame, of itself and as the wired link goes down, and the wired link coming
up. -/
theorem wireTransmitterTakesAndReleases : Obligations.WireTransmitterTakesAndReleases := by
  refine ⟨?account, ?management, ?abandoned, ?up, ?upSending⟩
  case account =>
    intro s a bytes ht hh he
    refine ⟨⟨_, exec_wireTransmissionEnd_sending ht, accountSent_returned hh he⟩,
      ⟨_, exec_wiredLinkDown_sending ht, ?_⟩⟩
    obtain ⟨hret, htakes, hrest⟩ := accountSent_returned (s := s.modifyWire fun w => { w with linkUp := false })
      (a := a) (by cases a <;> exact hh) he
    refine ⟨hret.of_wire, htakes.down rfl, ?_⟩
    refine State.Unchanged.trans (l := [.wire]) ?_ hrest fun q hq => by simp_all
    constructor <;> simp
  case management =>
    intro s bytes sent rest ht hm hr
    constructor
    · obtain ⟨w, e, htakes⟩ := wireNext_takesNext ({ s with wire := { s.wire with managementEgress := rest } } : State)
      refine ⟨w, ?_, htakes⟩
      rw [exec_wireTransmissionEnd_sending ht, wireEnd_management hm hr, e]
    · rw [exec_wiredLinkDown_sending ht, wireEnd_management (by exact hm) hr, wireNext_of_down rfl]
      rfl
  case abandoned =>
    intro s bytes ht
    constructor
    · obtain ⟨w, e, htakes⟩ := wireNext_takesNext s
      exact ⟨w, (exec_wireTransmissionEnd_sending ht).trans (next_finish_congr e), htakes⟩
    · rw [exec_wiredLinkDown_sending ht]
      change Host.Outcome.next (s.modifyWire fun w => { w with linkUp := false }).wireNext.finish = _
      rw [wireNext_of_down rfl]
      rfl
  case up =>
    intro s ht
    have htakes := take_takesNext { s.wire with linkUp := true }
    rw [← ht] at htakes
    exact ⟨⟨_, exec_wiredLinkUp s, htakes⟩, exec_wiredLinkDown_idle ht⟩
  case upSending =>
    intro s owner bytes ht
    rw [exec_wiredLinkUp, take_of_sending (by exact ht)]

end

namespace Sys2Proof.Machine

/-! ## Slots and the ends of the link's transmissions (R99, R133, R140, R152) -/

theorem exec_slotSignalled (s : State) :
    exec .slotSignalled s = .next (State.finish { s with link := s.link.slotSignalled }) := rfl

theorem exec_slotWithdrawn (s : State) :
    exec .slotWithdrawn s = .next (State.finish { s with link := s.link.slotWithdrawn }) := rfl

theorem slotSignalled_idle {l : LinkPort} (h : l.transmitter = .idle) :
    l.slotSignalled = { l with slotSignal := true, transmitter := .slotOpen } := by
  simp only [LinkPort.slotSignalled, h, if_true]

theorem slotSignalled_sending {l : LinkPort} {owner : LinkOwner} {bytes : List Byte}
    (h : l.transmitter = .sending owner bytes) : l.slotSignalled = { l with slotSignal := true } := by
  simp only [LinkPort.slotSignalled, h, reduceCtorEq, if_false]

theorem slotWithdrawn_open {l : LinkPort} (h : l.transmitter = .slotOpen) :
    l.slotWithdrawn = { l with slotSignal := false, transmitter := .idle, grant := none } := if_pos h

theorem slotWithdrawn_sending {l : LinkPort} {owner : LinkOwner} {bytes : List Byte}
    (h : l.transmitter = .sending owner bytes) : l.slotWithdrawn = { l with slotSignal := false } :=
  if_neg (by simp [h])

/-- R152: a reply other than the RESTART response has been sent. -/
theorem linkEnd_linkReply {s : State} {item : ReplyItem} {rest : List ReplyItem}
    (h : s.engine.linkReply = item :: rest) (hr : item.restartResponse = false) :
    s.linkEnd .linkReply = { s with engine := { s.engine with linkReply := rest } } := by
  simp [State.linkEnd, State.modifyEngine, h, hr]

/-- R99, R100: the frame of the link bulk queue has been sent, and its buffer returns, whatever the link port was. -/
theorem linkEnd_bulkBuffer {s : State} (l : LinkPort) (h : 1 ≤ s.pool.bulkHeld) (he : s.engine.executing = none) :
    ∃ t, State.linkEnd { s with link := l } .bulkBuffer = t ∧ t.link = l ∧
      t.pool.bulkHeld = s.pool.bulkHeld - 1 ∧ t.pool.free = s.pool.free + 1 ∧ t.pool.held = s.pool.held ∧
      t.pool.reservation = s.pool.reservation ∧ s.Raises t [] ∧ s.Unchanged [.link, .pool, .notices] t := by
  obtain ⟨armed, n, e, ht⟩ := lowPoolTest_tested ({ s with link := l } : State) { s.pool with
    free := s.pool.free + min 1 s.pool.bulkHeld, bulkHeld := s.pool.bulkHeld - 1 } rfl he
  have ht' := ht.congr (u := s) rfl rfl rfl
  refine ⟨_, e, rfl, rfl, by simp [h], rfl, rfl, ⟨n, ht', rfl⟩, ?_⟩
  constructor <;> simp

end Sys2Proof.Machine

section
open Sys2Proof Sys2Proof.Machine

/-- Settles O23: a slot signalled and withdrawn by the transmitter's state, and the end of a block by its owner. -/
theorem slotsAndTransmissionEnds : Obligations.SlotsAndTransmissionEnds := by
  refine ⟨⟨⟨fun s h => ?_, fun s owner bytes h => ?_⟩, fun s h => ?_, fun s owner bytes h => ?_⟩,
    ⟨fun s bytes h => ?_, fun s bytes h hb he => ?_⟩, fun s bytes item rest h hq hr => ?_⟩
  · rw [exec_slotSignalled, slotSignalled_idle h]
  · rw [exec_slotSignalled, slotSignalled_sending h]
  · rw [exec_slotWithdrawn, slotWithdrawn_open h]
  · rw [exec_slotWithdrawn, slotWithdrawn_sending h]
  · exact exec_linkTransmissionEnd_sending h
  · obtain ⟨t, e, hafter⟩ := linkEnd_bulkBuffer
      { s.link with transmitter := if s.link.slotSignal then .slotOpen else .idle } hb he
    exact ⟨t, (exec_linkTransmissionEnd_sending h).trans (next_finish_congr e), hafter⟩
  · rw [exec_linkTransmissionEnd_sending h, linkEnd_linkReply (by exact hq) hr]

end

namespace Sys2Proof.Machine

/-! ## The bulk path's receiving half (R97, R114, R115) -/

/-- R97, R100: a bulk buffer that the pool has is granted, with one low-pool test. -/
theorem grantBulk_granted {s : State} (hcap : s.pool.bulkHeld < s.params.bulkCap) (hfree : 1 ≤ s.pool.sharedFree)
    (he : s.engine.executing = none) :
    ∃ armed n, s.grantBulk = some { s with
        pool := { s.pool with free := s.pool.free - 1, bulkHeld := s.pool.bulkHeld + 1, lowArmed := armed }
        notices := n } ∧
      s.LowPoolTested
        { s.pool with free := s.pool.free - 1, bulkHeld := s.pool.bulkHeld + 1, lowArmed := armed } n := by
  obtain ⟨armed, n, e, ht⟩ := lowPoolTest_tested s
    { s.pool with free := s.pool.free - 1, bulkHeld := s.pool.bulkHeld + 1 } rfl he
  refine ⟨armed, n, ?_, ht⟩
  rw [State.grantBulk, if_pos (by simp [Pool.grantsBulk, hcap, hfree])]
  exact congrArg some e

theorem grantBulk_refused {s : State} (h : s.params.bulkCap ≤ s.pool.bulkHeld ∨ s.pool.sharedFree = 0) :
    s.grantBulk = none := by
  rw [State.grantBulk, if_neg]
  simp only [Pool.grantsBulk, Bool.and_eq_true, decide_eq_true_iff]
  omega

/-- R115: a frame that is no request for this bridge. -/
theorem isLinkRequest_false {s : State} {v : FrameView}
    (h : v.etherType ≠ managementEtherType ∨ v.destination ≠ s.params.stationAddress) :
    s.isLinkRequest v = false := by
  rcases h with h | h <;> simp [State.isLinkRequest, h]

theorem bulkAtPath_granted {s t : State} {frame : Frame} (h : s.isLinkRequest (readFrame frame) = false)
    (hg : s.grantBulk = some t) (cls : PortClass) :
    s.bulkAtPath cls frame = t.placeClass cls ⟨.bulk, frame⟩ := by
  simp only [State.bulkAtPath, h, hg, Bool.false_eq_true, if_false]

theorem bulkAtPath_refused {s : State} {frame : Frame} (h : s.isLinkRequest (readFrame frame) = false)
    (hg : s.grantBulk = none) (cls : PortClass) : s.bulkAtPath cls frame = s.countBulkDropped := by
  simp only [State.bulkAtPath, h, hg, Bool.false_eq_true, if_false]

/-- R115: a request for this bridge goes to intake. -/
theorem bulkAtPath_request {s : State} {frame : Frame} (h : s.isLinkRequest (readFrame frame) = true)
    (cls : PortClass) : s.bulkAtPath cls frame = s.intake .link (readFrame frame) := if_pos h

/-- R97, R114, R145: the frame of a BULK block is placed on the wire egress with a buffer. -/
theorem bulkAtPath_placed {s : State} {frame : Frame} (h : s.isLinkRequest (readFrame frame) = false)
    (hcap : s.pool.bulkHeld < s.params.bulkCap) (hfree : 1 ≤ s.pool.sharedFree) (he : s.engine.executing = none)
    (cls : PortClass) :
    ∃ w p n, s.bulkAtPath cls frame = { s with wire := w, pool := p, notices := n } ∧
      s.wire.Placed cls [⟨.bulk, frame⟩] w ∧ p.free = s.pool.free - 1 ∧ p.bulkHeld = s.pool.bulkHeld + 1 ∧
      p.held = s.pool.held ∧ p.reservation = s.pool.reservation ∧ s.LowPoolTested p n := by
  obtain ⟨armed, n, hgrant, htest⟩ := grantBulk_granted hcap hfree he
  obtain ⟨w, hplaced, hw⟩ := placeClass_placed ({ s with
    pool := { s.pool with free := s.pool.free - 1, bulkHeld := s.pool.bulkHeld + 1, lowArmed := armed }
    notices := n } : State) cls ⟨.bulk, frame⟩
  exact ⟨w, _, n, (bulkAtPath_granted h hgrant cls).trans hw, hplaced, rfl, rfl, rfl, rfl, htest⟩

/-- R149, R150, R151: a request of the bound manager that passes the screen, the binding, the record and the
queue is appended, and renews the lease. -/
theorem intake_queued {s : State} {origin : Origin} {v : FrameView} {h : ManagementHeader} {bound : Origin}
    {lease remaining : Nat} (hread : readManagement v.payload = some h) (hscreen : s.screensOut v h = false)
    (hb : s.engine.binding = .bound v.source bound lease remaining)
    (hrec : s.engine.recorded v.source h.tag = none) (hq : s.engine.queued v.source h.tag = false)
    (hroom : s.engine.requests.length < 8) :
    s.intake origin v = { s with engine := { s.engine with
      requests := s.engine.requests ++ [⟨v.source, origin, h.tag, h.code, h.body⟩]
      binding := .bound v.source bound lease (lease * 1000) } } := by
  have hto : s.boundTo v.source = true := by simp [State.boundTo, hb]
  have hlacks : s.lacksBinding v.source h.code = false := by simp [State.lacksBinding, hto]
  simp only [State.intake, hread, hscreen, State.admitRequest, hlacks, hrec, hq, State.enqueue, hroom, hto,
    Bool.false_eq_true, if_false, if_true, State.modifyEngine, hb, Binding.renewed]

theorem exec_bulkReceived_accepted {s : State} {epoch : Epoch} {cls : PortClass} {frame : Frame}
    {rest : List LinkBlock} (h : s.link.toBulk = ⟨epoch, .bulk cls frame⟩ :: rest)
    (hp : s.part.state = .partnered) (he : s.part.partnerEpoch = some epoch) :
    exec .bulkReceived s = .next (State.finish (State.bulkAtPath { s with
      link := { s.link with toBulk := rest }
      part := { s.part with silenceTimer := .running s.params.silenceLimit } } cls frame)) := by
  have ha : (s.modifyLink fun l => { l with toBulk := rest }).accepts epoch = true := by
    simp [State.accepts, hp, he]
  simp only [exec, execBulkReceived, h, ifAccepted_of_accepts ha]
  rfl

end Sys2Proof.Machine

section
open Sys2Proof Sys2Proof.Machine

/-- Settles O46: a frame with and without a buffer, and a request. -/
theorem bulkReceived : Obligations.BulkReceived := by
  intro s epoch cls frame rest he hq hp hepoch v u
  have hx : exec .bulkReceived s = .next (u.bulkAtPath cls frame).finish := exec_bulkReceived_accepted hq hp hepoch
  refine ⟨fun hv => ?_, ?_⟩
  · have hframe : u.isLinkRequest v = false := isLinkRequest_false hv
    refine ⟨fun hcap hfree => ?_, fun hfull => ?_⟩
    · obtain ⟨w, p, n, e, hplaced, hfree', hheld, hflows, hres, htest⟩ :=
        bulkAtPath_placed hframe hcap hfree he cls
      rw [e] at hx
      refine ⟨_, hx, hplaced, hfree', hheld, hflows, hres, ⟨n, htest.congr rfl rfl rfl, rfl⟩, ?_⟩
      constructor <;> simp
    · rw [hx, bulkAtPath_refused hframe (grantBulk_refused hfull)]
      rfl
  · intro h origin lease remaining hty hdest hbroad hread hver hkind hgroup hready hb hrec hqueued hroom
    have hrequest : u.isLinkRequest v = true := by
      simp only [State.isLinkRequest, Bool.and_eq_true, beq_iff_eq]
      exact ⟨hty, hdest⟩
    have hscreen : u.screensOut v h = false := by
      simp only [State.screensOut, Bool.or_eq_false_iff, bne_eq_false_iff_eq, Bool.and_eq_false_iff,
        beq_eq_false_iff_ne]
      exact ⟨⟨⟨⟨hready, hver⟩, hkind⟩, hgroup⟩, .inl (.inl hbroad)⟩
    rw [hx, bulkAtPath_request hrequest, intake_queued (s := u) hread hscreen hb hrec hqueued hroom]

end

namespace Sys2Proof.Machine

/-! ## Bodies of single bytes (R182, Table 11.4) -/

/-- One byte of a body, read as a number. -/
theorem byteAt_append_cons (front : List Byte) (b : Byte) (rest : List Byte) :
    byteAt (front ++ b :: rest) front.length = b.toNat := by
  simp [byteAt, field, slice, beValue]

theorem beBytes_one_toNat (b : Byte) : beBytes 1 b.toNat = [b] := by
  simp [beBytes]

/-! ## SET_NOTICES (R175) -/

theorem exec_setNotices (s : State) : exec .setNotices s = s.execute (· == codeSetNotices) setNoticesWork := rfl

theorem exec_readCounters (s : State) : exec .readCounters s =
    s.execute (· == codeReadCounters) readCountersWork := rfl

/-- R175: the mask that a SET_NOTICES carries. -/
def Notices.masked (n : Notices) (mask : Byte) : Notices :=
  { n with
    flowStateEnabled := mask.getLsbD 0
    linkStateEnabled := mask.getLsbD 1
    poolLowEnabled := mask.getLsbD 2 }

theorem setNoticesWork_taken {r : Request} {mask : Byte} (hb : r.body = [mask]) (hm : mask.toNat < 8) (s : State) :
    setNoticesWork r s = (⟨.ok, [mask]⟩, s.modifyNotices (·.masked mask)) := by
  have h0 : byteAt r.body 0 = mask.toNat := hb ▸ byteAt_append_cons [] mask []
  unfold setNoticesWork
  simp only [h0, beBytes_one_toNat]
  exact if_pos ⟨by rw [hb]; rfl, hm⟩

theorem setNoticesWork_refused {r : Request} {mask : Byte} (hb : r.body = [mask]) (hm : 8 ≤ mask.toNat) (s : State) :
    setNoticesWork r s = (.plain .badRequest, s) := by
  have h0 : byteAt r.body 0 = mask.toNat := hb ▸ byteAt_append_cons [] mask []
  unfold setNoticesWork
  simp only [h0]
  exact if_neg fun h => absurd h.2 (by omega)

/-! ## READ_COUNTERS (R178) -/

theorem readCountersWork_body {r : Request} {scope flow flags : Byte} (hb : r.body = [scope, flow, flags]) :
    byteAt r.body 0 = scope.toNat ∧ byteAt r.body 1 = flow.toNat ∧ byteAt r.body 2 = flags.toNat := by
  rw [hb]
  exact ⟨byteAt_append_cons [] scope _, byteAt_append_cons [scope] flow _, byteAt_append_cons [scope, flow] flags _⟩

theorem readCountersWork_device {r : Request} {flow flags : Byte} (hb : r.body = [0, flow, flags])
    (hf : flags = 0 ∨ flags = 1) (s : State) :
    readCountersWork r s = ((readDeviceCounters s flow (decide (flags = 1))).1,
      { s with deviceCounters := if flags = 1 then DeviceCounters.zero else s.deviceCounters }) := by
  obtain ⟨h0, h1, h2⟩ := readCountersWork_body hb
  have hlen : r.body.length = 3 := by rw [hb]; rfl
  unfold readCountersWork
  simp only [h0, h1, h2, hlen, BitVec.ofNat_toNat, BitVec.setWidth_eq]
  rcases hf with rfl | rfl <;> rfl

theorem readCountersWork_flow {r : Request} {flow flags : Byte} {f : FlowId} (hb : r.body = [1, flow, flags])
    (hflow : flow.toNat = f.val) (hf : flags = 0 ∨ flags = 1) (s : State) :
    readCountersWork r s = (⟨.ok, [1, flow] ++ counterBytes (readAt s.flowCounters f).values⟩,
      { s with
        flowCounters := if flags = 1 then writeAt s.flowCounters f FlowCounters.zero else s.flowCounters }) := by
  obtain ⟨h0, h1, h2⟩ := readCountersWork_body hb
  have hlen : r.body.length = 3 := by rw [hb]; rfl
  have hid : flowOfByte flow.toNat = some f := hflow ▸ dif_pos f.isLt
  have hbyte : beBytes 1 f.val = [flow] := by rw [← hflow, beBytes_one_toNat]
  unfold readCountersWork
  simp only [h0, h1, h2, hlen, hid, readFlowCounters, hbyte]
  rcases hf with rfl | rfl <;> rfl

theorem readCountersWork_refused {r : Request} {scope flow flags : Byte} (hb : r.body = [scope, flow, flags])
    (h : 1 < scope.toNat ∨ (scope = 1 ∧ 63 < flow.toNat) ∨ 1 < flags.toNat) (s : State) :
    readCountersWork r s = (.plain .badRequest, s) := by
  obtain ⟨h0, h1, h2⟩ := readCountersWork_body hb
  unfold readCountersWork
  simp only [h0, h1, h2]
  split
  · next hflags =>
    obtain ⟨-, hflags⟩ := hflags
    split
    · next hs =>
      rcases h with h | ⟨rfl, -⟩ | h
      · omega
      · cases hs
      · omega
    · have hflow : flowOfByte flow.toNat = none := by
        rcases h with h | ⟨-, h⟩ | h
        · omega
        · exact dif_neg (by omega)
        · omega
      rw [hflow]
    · rfl
  · rfl

/-! ## A request that leaves the notices to its work alone (R156, R173) -/

/-- R156, R173: a request whose work gives no mark to a notice. -/
theorem request_unmarked {s u : State} {r : Request} {code : Byte} {c : Instr} {named : Byte → Bool}
    {work : Request → State → Answer × State} {a : Answer} (h : s.Takes r code)
    (hc : exec c s = s.execute named work) (hn : named code = true) (hw : work r (s.begin r) = (a, u))
    (hu : u.engine = (s.begin r).engine) (hwire : u.wire = s.wire) (hnot : ∀ q ∈ u.notices.queue, q.held = none) :
    ∃ t, exec c s = .next t.finish ∧ s.Answers t r a.status a.body s.engine.linkReply ∧ s.EngineKept t ∧
      t.notices = u.notices ∧ u.Unchanged [.engine, .wire, .notices] t := by
  obtain ⟨t, e, hans, hb, hst, ht, hrest⟩ :=
    execute_effect h hc hn hw (by rw [hu]; simp [begin_eq]) (by rw [hu]; rfl) hwire
  rw [hu] at hans hb hst
  exact ⟨t, e, hans, ⟨hb, hst.trans h.ready⟩, ht.trans (clearMarks_unmarked hnot _), hrest⟩

end Sys2Proof.Machine

section
open Sys2Proof Sys2Proof.Machine

/-- Settles O59: the mask, the counters of each scope with and without the clear flag, and the refusals. -/
theorem noticeMaskAndCounters : Obligations.NoticeMaskAndCounters := by
  intro s r
  refine ⟨fun h mask hb => ⟨fun hm => ?mask, fun hm => ?maskRefused⟩,
    fun h flow flags => ⟨fun hb hf => ?device, fun f hflow hb hf => ?flow, fun scope hb hbad => ?refused⟩⟩
  case mask =>
    obtain ⟨t, e, hans, hkept, hnot, hrest⟩ :=
      request_unmarked h (exec_setNotices s) rfl (setNoticesWork_taken hb hm _) rfl rfl h.unmarked
    refine ⟨t, e, hans, hkept, hnot, ?_⟩
    refine State.Unchanged.trans (l := [.engine, .notices]) ?_ hrest fun q hq => by simp_all
    constructor <;> simp [begin_eq]
  case maskRefused => exact answersOnly_of h exec_setNotices rfl (setNoticesWork_refused hb hm _)
  case device =>
    obtain ⟨t, e, hans, hkept, hnot, hrest⟩ :=
      request_unmarked h (exec_readCounters s) rfl (readCountersWork_device hb hf _) rfl rfl h.unmarked
    refine ⟨t, _, e, hans, hkept, hnot, hrest.deviceCounters (by simp), ?_⟩
    refine State.Unchanged.trans (l := [.engine, .deviceCounters]) ?_ hrest fun q hq => by simp_all
    constructor <;> simp [begin_eq]
  case flow =>
    obtain ⟨t, e, hans, hkept, hnot, hrest⟩ :=
      request_unmarked h (exec_readCounters s) rfl (readCountersWork_flow hb hflow hf _) rfl rfl h.unmarked
    refine ⟨t, e, hans, hkept, hnot, hrest.flowCounters (by simp), ?_⟩
    refine State.Unchanged.trans (l := [.engine, .flowCounters]) ?_ hrest fun q hq => by simp_all
    constructor <;> simp [begin_eq]
  case refused => exact answersOnly_of h exec_readCounters rfl (readCountersWork_refused hb hbad _)

end

namespace Sys2Proof.Machine

/-! ## A management frame that the bridge forms (R181, Table 11.3) -/

/-- A number written big-endian at the front, in a field large enough for it, reads back. -/
theorem field_beBytes {size v : Nat} (h : v < 256 ^ size) (after : List Byte) :
    field (beBytes size v ++ after) 0 size = v := by
  calc field (beBytes size v ++ after) 0 size
    _ = beValue (beBytes size v) := field_between (before := []) rfl (beBytes_length _ _)
    _ = v := by rw [beValue_beBytes, Nat.mod_eq_of_lt h]

/-- The bytes between what stands before them and behind them. -/
theorem slice_between {before value after : List Byte} {offset size : Nat} (hb : before.length = offset)
    (hv : value.length = size) : slice (before ++ (value ++ after)) offset size = value := by
  subst hb hv
  simp [slice]

theorem length_padTo (n : Nat) (bytes : List Byte) : (padTo n bytes).length = max n bytes.length := by
  rw [padTo, List.length_append, List.length_replicate]
  omega

/-- Table 11.3: the 14 bytes of a management header, of the version that the bridge sends. -/
def managementHeaderBytes (kind : Nat) (tag : Tag) (code : Byte) (status : Nat) (unit : Address)
    (bodyLength : Nat) : List Byte :=
  beBytes 1 1 ++ beBytes 1 kind ++ beBytes 2 tag.toNat ++ beBytes 1 code.toNat ++ beBytes 1 status ++
    beBytes 6 unit.toNat ++ beBytes 2 bodyLength

theorem managementHeaderBytes_length (kind : Nat) (tag : Tag) (code : Byte) (status : Nat) (unit : Address)
    (bodyLength : Nat) : (managementHeaderBytes kind tag code status unit bodyLength).length = 14 := by
  simp [managementHeaderBytes]

/-- R181: the frame is an untagged Ethernet header, the management header, the body and the padding. -/
theorem formManagement_eq (destination source unit : Address) (kind : Nat) (tag : Tag) (code : Byte) (status : Nat)
    (body : List Byte) : ∃ padding, formManagement destination source unit kind tag code status body =
      beBytes 6 destination.toNat ++ beBytes 6 source.toNat ++ beBytes 2 managementEtherType.toNat ++
        (managementHeaderBytes kind tag code status unit body.length ++ (body ++ padding)) :=
  ⟨_, by
    simp only [formManagement, padTo, managementHeaderBytes, beBytes_one_toNat, List.append_assoc]
    rfl⟩

theorem formManagement_length_ge (destination source unit : Address) (kind : Nat) (tag : Tag) (code : Byte)
    (status : Nat) (body : List Byte) :
    60 ≤ (formManagement destination source unit kind tag code status body).length := by
  rw [formManagement, length_padTo]
  exact le_max_left _ _

/-- R181, R182: a header reads back with the body behind it, whatever bytes follow the body. -/
theorem readManagement_header {kind : Nat} (hlow : 1 ≤ kind) (hhigh : kind ≤ 3) (tag : Tag) (code : Byte)
    (status : Nat) (unit : Address) {body : List Byte} (hbody : body.length < 65536) (padding : List Byte) :
    readManagement (managementHeaderBytes kind tag code status unit body.length ++ (body ++ padding)) =
      some { version := 1, kind := kind, tag := tag, code := code, target := unit, body := body } := by
  have hheader := managementHeaderBytes_length kind tag code status unit body.length
  have hslice := slice_between (after := padding) hheader (value := body) rfl
  generalize hp : managementHeaderBytes kind tag code status unit body.length ++ (body ++ padding) = payload
    at hslice ⊢
  have hlen : payload.length = 14 + (body.length + padding.length) := by
    rw [← hp, List.length_append, List.length_append, hheader]
  have hversion : byteAt payload 0 = 1 := by
    simp [← hp, managementHeaderBytes, byteAt, List.append_assoc, field_beBytes]
  have hkind : byteAt payload 1 = kind := by
    simp [← hp, managementHeaderBytes, byteAt, List.append_assoc, field_skip, field_beBytes,
      show kind < 256 by omega]
  have htag : field payload 2 2 = tag.toNat := by
    simp [← hp, managementHeaderBytes, List.append_assoc, field_skip, field_word]
  have hcode : byteAt payload 4 = code.toNat := by
    simp [← hp, managementHeaderBytes, byteAt, List.append_assoc, field_skip, field_word]
  have hunit : field payload 6 6 = unit.toNat := by
    simp [← hp, managementHeaderBytes, List.append_assoc, field_skip, field_word]
  have hsize : field payload 12 2 = body.length := by
    simp [← hp, managementHeaderBytes, List.append_assoc, field_skip, field_beBytes, hbody]
  rw [readManagement, if_neg (by omega), if_neg (by omega), if_neg (by omega)]
  simp [hversion, hkind, htag, hcode, hunit, hsize, hslice]

end Sys2Proof.Machine

section
open Sys2Proof Sys2Proof.Machine

/-- Settles O17: the Ethernet header reads back, and the management header and body in its payload. -/
theorem managementFrameReadsBack : Obligations.ManagementFrameReadsBack := by
  intro destination source unit kind tag code status body hlow hhigh hbody frame
  obtain ⟨padding, hform⟩ := formManagement_eq destination source unit kind tag code status body
  have hread : readFrame frame = _ :=
    (congrArg readFrame hform).trans (readFrame_untagged destination source (by decide) _)
  rw [hread]
  exact ⟨formManagement_length_ge .., rfl, rfl, rfl, rfl,
    readManagement_header hlow hhigh tag code status unit hbody padding⟩

end

namespace Sys2Proof.Machine

/-! ## Receptions that no entry decides (R103, R108, R112) -/

/-- R103: the reasons for which a reception is bad. -/
theorem receptionGood_eq_false {received : List Byte} {receiveError : Bool}
    (h : checkHolds received = false ∨ receiveError = true ∨ (checkedPart received).length < 60 ∨
      1522 < (checkedPart received).length) : receptionGood received receiveError = false := by
  rcases h with check | error | short | long
  · simp [receptionGood, check]
  · simp [receptionGood, error]
  · simp [receptionGood, validFrameLength, short]
  · simp [receptionGood, validFrameLength, long]

theorem exec_wireFrameReception_bad {s : State} {received : List Byte} {receiveError : Bool}
    (h : receptionGood received receiveError = false) :
    exec (.wireFrameReception received receiveError) s =
      .next (s.countDevice fun c => { c with wireRxBad := c.wireRxBad + 1 }).finish := by
  simp [exec, execWireFrameReception, State.receiveFrame, h]

/-- R112: a frame that no entry matches is counted. -/
def State.countUnmatched (s : State) : State :=
  s.countDevice fun c => { c with wireUnmatched := c.wireUnmatched + 1 }

/-- R103, R105, R108, R112: a good frame of the data path that no entry matches meets the default action. -/
theorem exec_wireFrameReception_undecided {s : State} {received : List Byte}
    (hg : receptionGood received false = true) (hm : s.isManagement (readFrame (checkedPart received)) = false)
    (hu : s.tables.activeBank.Undecided (readFrame (checkedPart received))) :
    exec (.wireFrameReception received false) s =
      .next (s.countUnmatched.plainAction s.tables.activeBank.default (checkedPart received)).finish := by
  simp [exec, execWireFrameReception, State.receiveFrame, State.classifyFrame, State.countUnmatched, hg, hm,
    (classify_eq_none_iff _ _).2 hu]

/-- R103, R105: a good frame for management goes to intake. -/
theorem exec_wireFrameReception_management {s : State} {received : List Byte}
    (hg : receptionGood received false = true) (hm : s.isManagement (readFrame (checkedPart received)) = true) :
    exec (.wireFrameReception received false) s = .next (s.intake .wire (readFrame (checkedPart received))).finish := by
  simp [exec, execWireFrameReception, State.receiveFrame, hg, hm]

/-- R149: a version 1 request of a single source, sent to another address than the broadcast, passes the screen of an
engine that is READY. -/
theorem screensOut_eq_false {s : State} {v : FrameView} {h : ManagementHeader} (hready : s.engine.state = .ready)
    (hversion : h.version = 1) (hkind : h.kind = kindRequest) (hsource : isGroup v.source = false)
    (hdest : v.destination ≠ broadcastAddress) : s.screensOut v h = false := by
  simp [State.screensOut, hready, hversion, hkind, hsource, hdest]

end Sys2Proof.Machine

section
open Sys2Proof Sys2Proof.Machine

/-- Settles O18: a bad reception, and each default action for a frame that no entry matches. -/
theorem badAndUnmatchedFrames : Obligations.BadAndUnmatchedFrames := by
  refine ⟨?bad, ?queued, ?dropped⟩
  case bad =>
    intro s received receiveError h
    exact exec_wireFrameReception_bad (receptionGood_eq_false h)
  case queued =>
    intro s received cls hg hm hu hd hp hcap hfree he
    have hx := exec_wireFrameReception_undecided hg hm hu
    rw [hd] at hx
    obtain ⟨hq, hrest⟩ := bulkPath_taken (s := s.countUnmatched) ⟨hp, hcap, hfree⟩ he cls (checkedPart received)
    refine ⟨_, hx, hq.link, hq.free, hq.bulkHeld, hq.held, hq.reservation, hrest.deviceCounters (by simp),
      hq.raises.congr rfl rfl rfl rfl rfl,
      State.Unchanged.trans (l := [.deviceCounters]) ?_ hrest (by simp +contextual)⟩
    constructor <;> simp [State.countUnmatched]
  case dropped =>
    intro s received hg hm hu c
    have hx := exec_wireFrameReception_undecided hg hm hu
    refine ⟨fun hd => ?_, fun cls hd hroom => ?_⟩
    · rw [hx, hd]
      rfl
    · rw [hx, hd]
      exact next_finish_congr (bulkPath_dropped (s := s.countUnmatched) hroom cls _)

/-- Settles O20: the frame goes to intake, which appends the request and renews the lease. -/
theorem requestQueued : Obligations.RequestQueued := by
  intro s received h manager origin lease remaining v hg htype hdest hbroad hread hversion hkind hsource hready
    hbound hmanager hrecorded hqueued hroom
  subst hmanager
  have hm : s.isManagement v = true := (isManagement_iff s v).2 ⟨htype, .inl hdest⟩
  have hscreen : s.screensOut v h = false := screensOut_eq_false hready hversion hkind hsource hbroad
  rw [exec_wireFrameReception_management hg hm, intake_queued hread hscreen hbound hrecorded hqueued hroom]

end

namespace Sys2Proof.Machine

/-! ## What the configuration laws read (R121, R124, R163) -/

/-- The table store, the device parameters and the fuses: all that the configuration laws speak of. -/
def State.config (s : State) : TableStore × Params × Address := (s.tables, s.params, s.unitId)

/-- A change beside the three. (A proof by this lemma is no `rfl`, so that simp rewrites by it rather than by
unfolding the states that it stands between.) -/
theorem config_eq {s t : State} (ht : t.tables = s.tables) (hp : t.params = s.params) (hu : t.unitId = s.unitId) :
    t.config = s.config := by
  rw [State.config, ht, hp, hu, State.config]

theorem State.ConfigurationLaws.congr {s t : State} (h : s.ConfigurationLaws) (e : t.config = s.config) :
    t.ConfigurationLaws := by
  obtain ⟨ht, hp, hu⟩ : t.tables = s.tables ∧ t.params = s.params ∧ t.unitId = s.unitId := by
    simpa [State.config] using e
  exact ⟨ht ▸ h.profiles, ht ▸ h.ranges, ht ▸ h.fallbacks, ht ▸ h.noDangling, hp ▸ h.params, hu ▸ h.fuses⟩

/-! ### Updates of one block -/

@[simp] theorem modifyFlow_config (s : State) (f : FlowId) (g : Flow → Flow) :
    (s.modifyFlow f g).config = s.config := config_eq rfl rfl rfl
@[simp] theorem modifyWire_config (s : State) (g : WirePort → WirePort) : (s.modifyWire g).config = s.config :=
  config_eq rfl rfl rfl
@[simp] theorem modifyLink_config (s : State) (g : LinkPort → LinkPort) : (s.modifyLink g).config = s.config :=
  config_eq rfl rfl rfl
@[simp] theorem modifyPart_config (s : State) (g : Partnership → Partnership) :
    (s.modifyPart g).config = s.config := config_eq rfl rfl rfl
@[simp] theorem modifyEngine_config (s : State) (g : Engine → Engine) : (s.modifyEngine g).config = s.config :=
  config_eq rfl rfl rfl
@[simp] theorem modifyNotices_config (s : State) (g : Notices → Notices) :
    (s.modifyNotices g).config = s.config := config_eq rfl rfl rfl
@[simp] theorem countFlow_config (s : State) (f : FlowId) (g : FlowCounters → FlowCounters) :
    (s.countFlow f g).config = s.config := config_eq rfl rfl rfl
@[simp] theorem countDevice_config (s : State) (g : DeviceCounters → DeviceCounters) :
    (s.countDevice g).config = s.config := config_eq rfl rfl rfl
@[simp] theorem countStale_config (s : State) : s.countStale.config = s.config := config_eq rfl rfl rfl
@[simp] theorem countForeign_config (s : State) : s.countForeign.config = s.config := config_eq rfl rfl rfl
@[simp] theorem countIgnored_config (s : State) : s.countIgnored.config = s.config := config_eq rfl rfl rfl
@[simp] theorem countBulkDropped_config (s : State) : s.countBulkDropped.config = s.config :=
  config_eq rfl rfl rfl
@[simp] theorem countHit_config (s : State) (i : Fin 128) : (s.countHit i).config = s.config :=
  config_eq rfl rfl rfl
@[simp] theorem withPending_config (s : State) (cs : List Instr) : (s.withPending cs).config = s.config :=
  config_eq rfl rfl rfl
@[simp] theorem tick_config (s : State) : s.tick.config = s.config := by simp [State.config, State.tick]

/-! ### The shared operations -/

@[simp] theorem raiseCause_config (s : State) (c : NoticeContent) : (s.raiseCause c).config = s.config :=
  config_eq rfl rfl rfl

@[simp] theorem complete_config (s : State) (d : Option Deferred)
    (o : DeferredCode → Completion × Option Detail) : (s.complete d o).config = s.config := by
  obtain ⟨n, e⟩ := complete_eq s d o
  rw [e]
  rfl

@[simp] theorem releaseFlow_config (s : State) (f : FlowId) (k : Nat) : (s.releaseFlow f k).config = s.config := by
  obtain ⟨a, n, e⟩ := releaseFlow_eq s f k
  rw [e]
  rfl

@[simp] theorem releaseBulk_config (s : State) : s.releaseBulk.config = s.config := by
  obtain ⟨a, n, e⟩ := releaseBulk_eq s
  rw [e]
  rfl

@[simp] theorem releaseAccount_config (s : State) (a : Account) : (s.releaseAccount a).config = s.config := by
  cases a
  · exact releaseFlow_config s _ 1
  · exact releaseBulk_config s

theorem grantFlow_config {s t : State} {f : FlowId} (h : s.grantFlow f = some t) : t.config = s.config := by
  obtain ⟨-, a, n, rfl⟩ := grantFlow_some h
  rfl

theorem grantBulk_config {s t : State} (h : s.grantBulk = some t) : t.config = s.config := by
  obtain ⟨-, a, n, rfl⟩ := grantBulk_some h
  rfl

theorem prepareOpening_config {s t : State} {f : FlowId} (h : s.prepareOpening f = some t) :
    t.config = s.config := by
  obtain ⟨u, hu, rfl⟩ := Option.map_eq_some_iff.1 h
  obtain ⟨-, a, n, rfl⟩ := reserveFlow_some hu
  rfl

@[simp] theorem makePending_config (s : State) (f : FlowId) (b : LifecycleBlock) :
    (s.makePending f b).config = s.config := config_eq rfl rfl rfl

@[simp] theorem clearPending_config (s : State) (f : FlowId) : (s.clearPending f).config = s.config :=
  config_eq rfl rfl rfl

@[simp] theorem makeOpenPending_config (s : State) (f : FlowId) : (s.makeOpenPending f).config = s.config :=
  config_eq rfl rfl rfl

@[simp] theorem changeFlowState_config (s : State) (f : FlowId) (new : FlowState) (cause : FlowCause) :
    (s.changeFlowState f new cause).config = s.config := config_eq rfl rfl rfl

@[simp] theorem endFlow_config (s : State) (f : FlowId) (new : FlowState) (cause : FlowCause)
    (failure : Option FailureCause) (keep : Bool) (o : DeferredCode → Completion × Option Detail) :
    (s.endFlow f new cause failure keep o).config = s.config := by
  obtain ⟨a, n, e⟩ := endFlow_eq s f new cause failure keep o
  rw [e]
  rfl

@[simp] theorem closeFlow_config (s : State) (f : FlowId) (cause : FlowCause) (keep : Bool)
    (o : DeferredCode → Completion × Option Detail) : (s.closeFlow f cause keep o).config = s.config :=
  endFlow_config s f _ _ _ _ _

@[simp] theorem failFlow_config (s : State) (f : FlowId) (failure : FailureCause) (keep : Bool)
    (o : DeferredCode → Completion × Option Detail) : (s.failFlow f failure keep o).config = s.config :=
  endFlow_config s f _ _ _ _ _

@[simp] theorem completeDrain_config (s : State) (f : FlowId) : (s.completeDrain f).config = s.config := by
  unfold State.completeDrain
  split
  · split <;> simp
  · rfl

@[simp] theorem eachFlow_config {g : State → FlowId → State} (h : ∀ u f, (g u f).config = u.config) (s : State) :
    (s.eachFlow g).config = s.config := eachFlow_same State.config h s

@[simp] theorem discardPending_config (s : State) : s.discardPending.config = s.config := by
  rw [State.discardPending, modifyLink_config, eachFlow_config fun u f => modifyFlow_config u f _]

@[simp] theorem placeClass_config (s : State) (cls : PortClass) (item : WireItem) :
    (s.placeClass cls item).config = s.config := config_eq rfl rfl rfl

@[simp] theorem deliver_config (s : State) (f : FlowId) (frame : Frame) :
    (s.deliver f frame).config = s.config := config_eq rfl rfl rfl

@[simp] theorem deliverAll_config (s : State) (f : FlowId) (frames : List Frame) :
    (s.deliverAll f frames).config = s.config := by
  rw [deliverAll_eq]
  rfl

@[simp] theorem placeReply_config (s : State) (origin : Origin) (item : ReplyItem) :
    (s.placeReply origin item).config = s.config := by
  obtain ⟨w, r, e, -⟩ := placeReply_eq s origin item
  rw [e]
  rfl

@[simp] theorem finish_config (s : State) : s.finish.config = s.config := by
  obtain ⟨ns, w, r, g, e⟩ := finish_eq s
  rw [e]
  rfl

@[simp] theorem present_config (s : State) (b : LinkBlock) (owner : LinkOwner) :
    (s.present b owner).config = s.config := by
  rw [present_eq]
  rfl

@[simp] theorem changeLinkState_config (s : State) (new : LinkState) (cause : LinkCause) :
    (s.changeLinkState new cause).config = s.config := config_eq rfl rfl rfl

@[simp] theorem restartSilence_config (s : State) : s.restartSilence.config = s.config :=
  config_eq rfl rfl rfl

@[simp] theorem completeJoin_config (s : State) (o : Completion) : (s.completeJoin o).config = s.config := by
  obtain ⟨n, e⟩ := completeJoin_eq s o
  rw [e]
  rfl

@[simp] theorem drawEpoch_config (s : State) : s.drawEpoch.config = s.config := config_eq rfl rfl rfl

@[simp] theorem applyRestart_config (s : State) : s.applyRestart.config = s.config := by
  simp [State.config, State.applyRestart]

@[simp] theorem responseDeparted_config (s : State) : s.responseDeparted.config = s.config := by
  unfold State.responseDeparted
  split <;> simp

@[simp] theorem discardReplies_config (s : State) : s.discardReplies.config = s.config := by
  unfold State.discardReplies
  simp only
  split <;> simp

/-! ### The sender half (section 1) -/

@[simp] theorem statusAtFlow_config (s : State) (f : FlowId) (a : Seq) (map : BitVec 64) (high : Option Seq) :
    (s.statusAtFlow f a map high).config = s.config := by
  unfold State.statusAtFlow
  split
  · rfl
  · rfl
  · rfl
  all_goals
    simp only
    split <;> simp

@[simp] theorem sendData_config (s : State) (f : FlowId) (cls : PortClass) (epoch : Epoch) (body : BlockBody) :
    (s.sendData f cls epoch body).config = s.config := by
  simp [State.sendData]

@[simp] theorem serveDue_config (s : State) (f : FlowId) (cls : PortClass) (epoch : Epoch) (e : WindowEntry) :
    (s.serveDue f cls epoch e).config = s.config := by
  unfold State.serveDue
  split
  · simp [State.sendAgain]
  · split
    · simp [State.sendSkip]
    · simp [State.exhaust]

@[simp] theorem dataGrantAt_config (s : State) (f : FlowId) (cls : PortClass) :
    (s.dataGrantAt f cls).config = s.config := by
  unfold State.dataGrantAt
  split
  · rfl
  · split
    · unfold State.serveData
      split
      · simp
      · split
        · simp [State.sendNew]
        · rfl
    · rfl

/-! ### The receiver half (section 2) -/

@[simp] theorem advanceExpected_config (s : State) (f : FlowId) : (s.advanceExpected f).config = s.config := by
  simp [State.advanceExpected]

@[simp] theorem setStatusPending_config (s : State) (f : FlowId) : (s.setStatusPending f).config = s.config :=
  config_eq rfl rfl rfl

@[simp] theorem acceptData_config (s : State) (f : FlowId) : (s.acceptData f).config = s.config :=
  config_eq rfl rfl rfl

@[simp] theorem insertMember_config (s : State) (f : FlowId) (m : Member) : (s.insertMember f m).config = s.config :=
  config_eq rfl rfl rfl

@[simp] theorem countOutOfWindow_config (s : State) (f : FlowId) : (s.countOutOfWindow f).config = s.config :=
  config_eq rfl rfl rfl

@[simp] theorem dataInOrder_config (s : State) (f : FlowId) (frame : Frame) :
    (s.dataInOrder f frame).config = s.config := by
  unfold State.dataInOrder
  split
  · rfl
  · next u hu => simp [grantFlow_config hu]

@[simp] theorem dataEarly_config (s : State) (f : FlowId) (q : Seq) (frame : Frame) :
    (s.dataEarly f q frame).config = s.config := by
  unfold State.dataEarly
  split
  · rfl
  · next u hu =>
    simp only
    split <;> simp [grantFlow_config hu]

@[simp] theorem dataDuplicate_config (s : State) (f : FlowId) : (s.dataDuplicate f).config = s.config :=
  config_eq rfl rfl rfl

@[simp] theorem dataElsewhere_config (s : State) (f : FlowId) : (s.dataElsewhere f).config = s.config := by
  unfold State.dataElsewhere
  split <;> rfl

@[simp] theorem dataAtFlow_config (s : State) (f : FlowId) (q : Seq) (frame : Frame) :
    (s.dataAtFlow f q frame).config = s.config := by
  unfold State.dataAtFlow
  split
  · unfold State.sortData
    simp only
    split_ifs <;> simp
  · simp

@[simp] theorem advanceAtFlow_config (s : State) (f : FlowId) (q : Seq) :
    (s.advanceAtFlow f q).config = s.config := by
  unfold State.advanceAtFlow
  split
  · unfold State.sortAdvance
    simp only
    split_ifs <;> simp
  · simp

@[simp] theorem statusGrantAt_config (s : State) (f : FlowId) : (s.statusGrantAt f).config = s.config := by
  unfold State.statusGrantAt
  split
  · rfl
  · split <;> simp

/-! ### The lifecycle (section 3) -/

@[simp] theorem completeDeferred_config (s : State) (f : FlowId) (o : Completion) :
    (s.completeDeferred f o).config = s.config := by
  simp [State.completeDeferred]

@[simp] theorem openAtClosed_config (s : State) (f : FlowId) (window : Nat) (order : OrderMode) :
    (s.openAtClosed f window order).config = s.config := by
  unfold State.openAtClosed
  simp only
  split
  · rfl
  · split
    · rfl
    · split
      · rfl
      · next u hu => simp [prepareOpening_config hu]

@[simp] theorem openAtFlow_config (s : State) (f : FlowId) (window : Nat) (order : OrderMode) :
    (s.openAtFlow f window order).config = s.config := by
  unfold State.openAtFlow
  split
  · simp
  · unfold State.openCrossed
    simp only
    split <;> simp
  all_goals rfl

@[simp] theorem clearOpen_config (s : State) (f : FlowId) : (s.clearOpen f).config = s.config := by
  unfold State.clearOpen
  split <;> rfl

@[simp] theorem openAckAtFlow_config (s : State) (f : FlowId) (verdict : Verdict) :
    (s.openAckAtFlow f verdict).config = s.config := by
  unfold State.openAckAtFlow
  split
  · unfold State.acceptanceAtFlow
    split <;> simp
  · unfold State.refusalAtFlow
    split <;> simp

@[simp] theorem closeAtFlow_config (s : State) (f : FlowId) : (s.closeAtFlow f).config = s.config := by
  unfold State.closeAtFlow
  split
  · simp
  · split <;> simp
  all_goals rfl

@[simp] theorem closeAckAtFlow_config (s : State) (f : FlowId) : (s.closeAckAtFlow f).config = s.config := by
  unfold State.closeAckAtFlow
  split <;> simp

@[simp] theorem abortAtFlow_config (s : State) (f : FlowId) : (s.abortAtFlow f).config = s.config := by
  unfold State.abortAtFlow
  split <;> simp

@[simp] theorem afterTaking_config (s : State) (f : FlowId) (b : LifecycleBlock) :
    (s.afterTaking f b).config = s.config := by
  cases b with
  | openFlow | close => rfl
  | openAck | closeAck =>
    simp only [State.afterTaking]
    split <;> simp
  | abort => simp [State.afterTaking]

@[simp] theorem lifecycleGrantAt_config (s : State) (f : FlowId) : (s.lifecycleGrantAt f).config = s.config := by
  unfold State.lifecycleGrantAt
  split
  · rfl
  · split
    · rfl
    · split <;> simp

@[simp] theorem lossAtFlow_config (s : State) (f : FlowId) : (s.lossAtFlow f).config = s.config := by
  unfold State.lossAtFlow
  split <;> simp

@[simp] theorem regainAtFlow_config (s : State) (f : FlowId) : (s.regainAtFlow f).config = s.config := by
  unfold State.regainAtFlow
  split
  · simp only
    split <;> simp
  · rfl

@[simp] theorem partnershipEndAtFlow_config (failure : FailureCause) (s : State) (f : FlowId) :
    (s.partnershipEndAtFlow failure f).config = s.config := by
  unfold State.partnershipEndAtFlow
  split <;> simp

@[simp] theorem leaveAtFlow_config (s : State) (f : FlowId) : (s.leaveAtFlow f).config = s.config := by
  unfold State.leaveAtFlow
  split <;> simp

@[simp] theorem localLeaveAtFlow_config (s : State) (f : FlowId) : (s.localLeaveAtFlow f).config = s.config := by
  unfold State.localLeaveAtFlow
  split <;> simp

@[simp] theorem openTimerExpired_config (s : State) (f : FlowId) : (s.openTimerExpired f).config = s.config := by
  unfold State.openTimerExpired
  split <;> simp

@[simp] theorem closeSeriesExpired_config (s : State) (f : FlowId) :
    (s.closeSeriesExpired f).config = s.config := by
  unfold State.closeSeriesExpired
  simp only
  split <;> simp

/-! ### The partnership (section 4) -/

@[simp] theorem ifAccepted_config (s : State) (epoch : Epoch) {d : State → State}
    (h : ∀ u, (d u).config = u.config) : (s.ifAccepted epoch d).config = s.config := by
  unfold State.ifAccepted
  split <;> simp [h]

@[simp] theorem helloInJoining_config (s : State) (epoch : Epoch) (unit : Address) (seen : Option Epoch) :
    (s.helloInJoining epoch unit seen).config = s.config := by
  unfold State.helloInJoining
  simp only
  split <;> simp [State.handshake]

@[simp] theorem partnerRestart_config (s : State) (epoch : Epoch) (unit : Address) (seen : Option Epoch) :
    (s.partnerRestart epoch unit seen).config = s.config := by
  simp [State.partnerRestart]

@[simp] theorem helloAtPartnership_config (s : State) (epoch : Epoch) (unit : Address) (seen : Option Epoch) :
    (s.helloAtPartnership epoch unit seen).config = s.config := by
  unfold State.helloAtPartnership
  split
  · rfl
  · split_ifs <;> simp
  · split
    · rfl
    · unfold State.helloInPartnered
      split <;> simp
  · split
    · rfl
    · unfold State.helloInLost
      split_ifs <;> simp [State.regain]

@[simp] theorem leaveAtPartnership_config (s : State) (epoch : Epoch) :
    (s.leaveAtPartnership epoch).config = s.config := by
  unfold State.leaveAtPartnership
  split <;> simp [State.partnerLeft]

@[simp] theorem localLeave_config (s : State) : s.localLeave.config = s.config := by
  simp [State.localLeave]

@[simp] theorem partnershipGrantAt_config (s : State) : s.partnershipGrantAt.config = s.config := by
  unfold State.partnershipGrantAt
  split
  · simp [State.sendLeave]
  · split_ifs <;> simp [State.sendHello, State.sendKeepalive]
  · rfl

@[simp] theorem joinExpired_config (s : State) : s.joinExpired.config = s.config := by
  simp [State.joinExpired]

@[simp] theorem silenceExpired_config (s : State) : s.silenceExpired.config = s.config := by
  simp [State.silenceExpired]

@[simp] theorem holdExpired_config (s : State) : s.holdExpired.config = s.config := by
  simp [State.holdExpired]

/-! ### Intake and the ports (sections 6, 8 and 9) -/

@[simp] theorem answerAtIntake_config (s : State) (origin : Origin) (frame : Frame) :
    (s.answerAtIntake origin frame).config = s.config := by
  unfold State.answerAtIntake
  split <;> simp

@[simp] theorem admitRequest_config (s : State) (r : Request) : (s.admitRequest r).config = s.config := by
  unfold State.admitRequest State.enqueue
  split
  · simp
  · split
    · simp
    · split_ifs <;> simp

@[simp] theorem intake_config (s : State) (origin : Origin) (v : FrameView) :
    (s.intake origin v).config = s.config := by
  unfold State.intake
  split
  · rfl
  · split <;> simp

@[simp] theorem bulkPath_config (s : State) (cls : PortClass) (frame : Frame) :
    (s.bulkPath cls frame).config = s.config := by
  unfold State.bulkPath
  split
  · split
    · next u hu => simp [grantBulk_config hu]
    · rfl
  · rfl

@[simp] theorem plainAction_config (s : State) (action : PlainAction) (frame : Frame) :
    (s.plainAction action frame).config = s.config := by
  cases action <;> simp [State.plainAction]

@[simp] theorem acceptFrame_config (s : State) (f : FlowId) (frame : Frame) :
    (s.acceptFrame f frame).config = s.config := by
  unfold State.acceptFrame
  split
  · next u hu => simp [grantFlow_config hu]
  · rfl

@[simp] theorem classifyFrame_config (s : State) (v : FrameView) (frame : Frame) :
    (s.classifyFrame v frame).config = s.config := by
  unfold State.classifyFrame
  split
  · unfold State.entryAction
    split
    · rfl
    · simp
    · unfold State.offerFrame
      split <;> simp
  · simp

@[simp] theorem receiveFrame_config (s : State) (received : List Byte) (bad : Bool) :
    (s.receiveFrame received bad).config = s.config := by
  unfold State.receiveFrame
  simp only
  split_ifs <;> simp

@[simp] theorem wireEnd_config (s : State) (owner : WireOwner) : (s.wireEnd owner).config = s.config := by
  unfold State.wireEnd
  split
  · rfl
  · simp
  · simp only
    split <;> simp

@[simp] theorem wireNext_config (s : State) : s.wireNext.config = s.config := config_eq rfl rfl rfl

@[simp] theorem wireDown_config (s : State) : s.wireDown.config = s.config := by
  unfold State.wireDown
  simp only
  split <;> simp

@[simp] theorem bulkGrantAt_config (s : State) : s.bulkGrantAt.config = s.config := by
  unfold State.bulkGrantAt
  split
  · rfl
  · split
    · simp [State.bulkTaken]
    · split <;> simp [State.bulkTaken]

@[simp] theorem bulkAtPath_config (s : State) (cls : PortClass) (frame : Frame) :
    (s.bulkAtPath cls frame).config = s.config := by
  unfold State.bulkAtPath
  simp only
  split
  · simp
  · split
    · next u hu => simp [grantBulk_config hu]
    · rfl

@[simp] theorem linkEnd_config (s : State) (owner : LinkOwner) : (s.linkEnd owner).config = s.config := by
  unfold State.linkEnd
  split
  · rfl
  · simp
  · simp
  · simp only
    split <;> simp

@[simp] theorem deliverBlock_config (s : State) (received : List Byte) (bad : Bool) :
    (s.deliverBlock received bad).config = s.config := by
  unfold State.deliverBlock
  split
  · rfl
  · split <;> rfl

/-! ### The requests that leave the tables and the parameters alone (sections 9 and 10) -/

@[simp] theorem answerRequest_config (s : State) (r : Request) (a : Answer) :
    (s.answerRequest r a).config = s.config := by
  obtain ⟨w, replies, e, -⟩ := answerRequest_eq s r a
  rw [e]
  rfl

@[simp] theorem refuseUnbound_config (s : State) (r : Request) : (s.refuseUnbound r).config = s.config := by
  simp [State.refuseUnbound, State.respond]

@[simp] theorem begin_config (s : State) (r : Request) : (s.begin r).config = s.config :=
  config_eq rfl rfl rfl

theorem bodyless_config {s : State} (r : Request) {work : Answer × State} (h : work.2.config = s.config) :
    (bodyless r s work).2.config = s.config := by
  unfold bodyless
  split
  · exact h
  · rfl

theorem withFlow_config {s : State} (r : Request) {work : FlowId → Answer × State}
    (h : ∀ f, (work f).2.config = s.config) : (withFlow r s work).2.config = s.config := by
  unfold withFlow
  split
  · rfl
  · exact h _

theorem bindWork_config (r : Request) (s : State) : (bindWork r s).2.config = s.config := by
  unfold bindWork bindWith
  simp only
  split
  · split
    · rfl
    · split <;> rfl
  · rfl

theorem readTableWork_config (r : Request) (s : State) : (readTableWork r s).2.config = s.config := by
  unfold readTableWork
  simp only
  split
  · split <;> rfl
  · rfl

theorem flowOpenAt_config (s : State) (f : FlowId) (tag : Tag) : (flowOpenAt s f tag).2.config = s.config := by
  unfold flowOpenAt
  split_ifs
  · rfl
  · rfl
  · rfl
  · rfl
  · split
    · rfl
    · next u hu => simp [State.takeOpening, prepareOpening_config hu]

theorem flowCloseAt_config (s : State) (f : FlowId) (tag : Tag) : (flowCloseAt s f tag).2.config = s.config := by
  unfold flowCloseAt
  split
  · simp [State.startDrain]
  all_goals rfl

theorem flowAbortAt_config (s : State) (f : FlowId) : (flowAbortAt s f).2.config = s.config := by
  simp only [flowAbortAt, State.abortFlow]
  split_ifs <;> simp

theorem flowResetAt_config (s : State) (f : FlowId) : (flowResetAt s f).2.config = s.config := by
  unfold flowResetAt
  split <;> simp

theorem joinAt_config (s : State) (tag : Tag) : (joinAt s tag).2.config = s.config := by
  unfold joinAt
  split
  · simp [State.startJoin]
  all_goals rfl

theorem linkLeaveWork_config (r : Request) (s : State) : (linkLeaveWork r s).2.config = s.config := by
  refine bodyless_config r ?_
  simp only
  split <;> simp

theorem readCountersWork_config (r : Request) (s : State) : (readCountersWork r s).2.config = s.config := by
  unfold readCountersWork
  simp only
  split
  · split
    · simp only [readDeviceCounters]
      split <;> rfl
    · split
      · simp only [readFlowCounters]
        split <;> rfl
      · rfl
    · rfl
  · rfl

theorem setNoticesWork_config (r : Request) (s : State) : (setNoticesWork r s).2.config = s.config := by
  unfold setNoticesWork
  simp only
  split <;> rfl

theorem executeRestart_config (s : State) (r : Request) : (s.executeRestart r).config = s.config := by
  have hw : (restartWork r s).2.config = s.config := bodyless_config r rfl
  have hd : (s.executeRequest r restartWork).config = s.config := by
    unfold State.executeRequest
    split <;> simp [hw]
  unfold State.executeRestart
  simp only
  split <;> simp [hd]

/-! ### The commands that leave the configuration alone -/

/-- The outcome has the tables, the parameters and the fuses of a state. -/
def KeepsConfig (s : State) (o : Host.Outcome State Fault Refusal) : Prop := ∀ t, o = .next t → t.config = s.config

theorem keepsConfig_same (s : State) : KeepsConfig s (.next s) := fun _ e => by
  cases e
  rfl

theorem keepsConfig_finish {s u : State} (h : u.config = s.config) : KeepsConfig s (.next u.finish) := fun _ e => by
  cases e
  exact (finish_config u).trans h

theorem keepsConfig_ite {s u : State} {p : Prop} [Decidable p] (h : u.config = s.config) :
    KeepsConfig s (if p then .next u.finish else .next s) := by
  split
  · exact keepsConfig_finish h
  · exact keepsConfig_same s

theorem keepsConfig_execute {s : State} {named : Byte → Bool} {work : Request → State → Answer × State}
    (hw : ∀ r u, (work r u).2.config = u.config) : KeepsConfig s (s.execute named work) := by
  unfold State.execute
  split
  · exact keepsConfig_same s
  · next r _ =>
    split
    · refine keepsConfig_finish ?_
      unfold State.executeRequest
      split <;> simp [hw]
    · exact keepsConfig_same s

/-- The commands that change a table or a parameter: the reset and four requests. -/
def configures : Instr → Bool
  | .powerOnReset | .writeTable | .copyBank | .commit | .setParams => true
  | _ => false

theorem exec_keepsConfig {c : Instr} (hc : configures c = false) (s : State) : KeepsConfig s (exec c s) := by
  cases c with
  | powerOnReset | writeTable | copyBank | commit | setParams => cases hc
  | wireFrameReception | linkBlockDelivery | slotSignalled | slotWithdrawn | wiredLinkUp | wiredLinkDown =>
    exact keepsConfig_finish (by simp)
  | helloReceived | keepaliveReceived | leaveReceived | openReceived | openAckReceived | closeReceived
  | closeAckReceived | abortReceived | dataReceived | advanceReceived | statusReceived | bulkReceived =>
    simp only [exec, execHelloReceived, execKeepaliveReceived, execLeaveReceived, execOpenReceived,
      execOpenAckReceived, execCloseReceived, execCloseAckReceived, execAbortReceived, execDataReceived,
      execAdvanceReceived, execStatusReceived, execBulkReceived, State.dropFlowBlock]
    split
    · exact keepsConfig_finish (by simp)
    · exact keepsConfig_same s
  | dataGrant | statusGrant | lifecycleGrant | partnershipGrant | bulkGrant =>
    simp only [exec, execDataGrant, execStatusGrant, execLifecycleGrant, execPartnershipGrant, execBulkGrant]
    split
    · exact keepsConfig_finish (by simp)
    · exact keepsConfig_same s
  | linkTransmissionEnd =>
    simp only [exec, execLinkTransmissionEnd]
    split
    · exact keepsConfig_finish (by simp)
    · exact keepsConfig_same s
    · exact keepsConfig_same s
  | wireTransmissionEnd =>
    simp only [exec, execWireTransmissionEnd]
    split
    · exact keepsConfig_finish (by simp)
    · exact keepsConfig_same s
  | restart =>
    simp only [exec, Machine.execRestart]
    split
    · exact keepsConfig_same s
    · exact keepsConfig_ite (executeRestart_config _ _)
  | retransmissionTimerExpiry | closeSeriesExpiry | openTimerExpiry | ackDelayTimerExpiry | joinTimerExpiry
  | helloTimerExpiry | silenceTimerExpiry | keepaliveTimerExpiry | holdTimerExpiry | leaseTimerExpiry =>
    exact keepsConfig_ite (by simp)
  | bind => exact keepsConfig_execute (named := (· == codeBind)) bindWork_config
  | readTable => exact keepsConfig_execute (named := (· == codeReadTable)) readTableWork_config
  | readCounters => exact keepsConfig_execute (named := (· == codeReadCounters)) readCountersWork_config
  | setNotices => exact keepsConfig_execute (named := (· == codeSetNotices)) setNoticesWork_config
  | linkLeave => exact keepsConfig_execute (named := (· == codeLinkLeave)) linkLeaveWork_config
  | unknownRequest =>
    exact keepsConfig_execute (named := fun code => !requestCodes.contains code)
      (work := fun _ s => (.plain .badRequest, s)) fun _ _ => rfl
  | identify =>
    exact keepsConfig_execute (named := (· == codeIdentify)) (work := identifyWork) fun r u =>
      bodyless_config r rfl
  | unbind =>
    exact keepsConfig_execute (named := (· == codeUnbind)) (work := unbindWork) fun r u =>
      bodyless_config r (modifyEngine_config u _)
  | linkJoin =>
    exact keepsConfig_execute (named := (· == codeLinkJoin)) (work := linkJoinWork) fun r u =>
      bodyless_config r (joinAt_config u _)
  | linkStatus =>
    exact keepsConfig_execute (named := (· == codeLinkStatus)) (work := linkStatusWork) fun r u =>
      bodyless_config r rfl
  | readParams =>
    exact keepsConfig_execute (named := (· == codeReadParams)) (work := readParamsWork) fun r u =>
      bodyless_config r rfl
  | flowOpen =>
    exact keepsConfig_execute (named := (· == codeFlowOpen)) (work := flowOpenWork) fun r u =>
      withFlow_config r fun f => flowOpenAt_config u f _
  | flowClose =>
    exact keepsConfig_execute (named := (· == codeFlowClose)) (work := flowCloseWork) fun r u =>
      withFlow_config r fun f => flowCloseAt_config u f _
  | flowAbort =>
    exact keepsConfig_execute (named := (· == codeFlowAbort)) (work := flowAbortWork) fun r u =>
      withFlow_config r (flowAbortAt_config u)
  | flowReset =>
    exact keepsConfig_execute (named := (· == codeFlowReset)) (work := flowResetWork) fun r u =>
      withFlow_config r (flowResetAt_config u)
  | flowStatus =>
    exact keepsConfig_execute (named := (· == codeFlowStatus)) (work := flowStatusWork) fun r u =>
      withFlow_config r fun _ => rfl

/-! ### What a request may write (R124, R163) -/

/-- R124: the classification entries of a bank are in range, with a fallback exactly when the action is FLOW. -/
def Bank.EntriesInRange (b : Bank) : Prop :=
  ∀ i, (readAt b.entries i).inRange ∧ fallbackFits (readAt b.entries i).action (readAt b.entries i).fallback = true

theorem optionalField_some {α : Type} {present : Bool} {read : Option α} {x : α}
    (h : optionalField present read = some (some x)) : read = some x := by
  cases present with
  | false => cases h
  | true => simpa [optionalField] using h

theorem priorityOfBytes_le {low high : Nat} {r : BitVec 3 × BitVec 3} (h : priorityOfBytes low high = some r) :
    r.1 ≤ r.2 := by
  unfold priorityOfBytes at h
  split at h
  · next hr =>
    cases h
    simp only [BitVec.le_def, BitVec.toNat_ofNat]
    omega
  · cases h

theorem patternOfBytes_inRange {offset length : Nat} {values masks : List Byte} {p : PayloadPattern}
    (hv : values.length = 4) (hm : masks.length = 4) (h : patternOfBytes offset length values masks = some p) :
    p.offset ≤ 127 ∧ 1 ≤ p.bytes.length ∧ p.bytes.length ≤ 4 := by
  unfold patternOfBytes at h
  split at h
  · next hr =>
    cases h
    simp only [List.length_take, List.length_zip, hv, hm]
    omega
  · cases h

/-- R124: an entry that is read from its 33 bytes is in range. -/
theorem classEntryOfBytes_inRange {bytes : List Byte} {e : ClassEntry} (hl : bytes.length = 33)
    (h : classEntryOfBytes bytes = some e) : e.inRange ∧ fallbackFits e.action e.fallback = true := by
  simp only [classEntryOfBytes, bind, Option.bind_eq_some_iff] at h
  obtain ⟨_, -, _, hpriority, _, hpattern, _, -, _, -, h⟩ := h
  split at h
  · next hfits =>
    cases h
    refine ⟨⟨fun r hr => ?_, fun p hp => ?_⟩, hfits⟩
    · cases hr
      exact priorityOfBytes_le (optionalField_some hpriority)
    · cases hp
      exact patternOfBytes_inRange (slice_length (by omega)) (slice_length (by omega))
        (optionalField_some hpattern)
  · cases h

theorem writeEntry_entriesInRange {b b' : Bank} (h : b.EntriesInRange) {t : TableName} {i : Nat} {bytes : List Byte}
    (hl : bytes.length = t.entryBytes) (e : b.writeEntry t i bytes = some b') : b'.EntriesInRange := by
  cases t with
  | profile => obtain ⟨_, _, rfl⟩ := Option.map_eq_some_iff.1 e; exact h
  | default => obtain ⟨_, _, rfl⟩ := Option.map_eq_some_iff.1 e; exact h
  | classification =>
    obtain ⟨c, hc, rfl⟩ := Option.map_eq_some_iff.1 e
    intro k
    simp only [readAt, Vector.getElem_setIfInBounds]
    split
    · exact classEntryOfBytes_inRange hl hc
    · exact h k

theorem writeEntries_entriesInRange {b b' : Bank} (h : b.EntriesInRange) {t : TableName} {count i : Nat}
    {bytes : List Byte} (hl : bytes.length = count * t.entryBytes)
    (e : b.writeEntries t count i bytes = .written b') : b'.EntriesInRange := by
  induction count generalizing b i bytes with
  | zero => cases e; exact h
  | succ count ih =>
    rw [Nat.succ_mul] at hl
    simp only [Bank.writeEntries] at e
    split at e
    · cases e
    · next hb =>
      exact ih (writeEntry_entriesInRange h (by simp [hl]) hb) (by simp [hl]) e

/-- Table 9.4: each parameter that a presence byte marks has been checked, and each other one is as it was. -/
theorem withArea_sound {p : Params} (h : p.sound) {presence : Nat} {area : List Byte}
    (hr : (p.withArea presence area).inRange presence area = true) : (p.withArea presence area).sound := by
  obtain ⟨hgroup, hzero, hsl, hsh, hkl, hkh, -, hhl, hhh, hjl, hjh, hcap, hlow⟩ := h
  simp only [Params.inRange, presentIn, Bool.and_eq_true, Bool.or_eq_true, Bool.not_eq_true', bne_iff_ne,
    decide_eq_true_eq] at hr
  obtain ⟨⟨⟨⟨⟨⟨⟨⟨rstation, rsilence⟩, rkeep⟩, rhold⟩, rjoin⟩, -⟩, rcap⟩, rlow⟩, rless⟩ := hr
  have hstation : isGroup (p.withArea presence area).stationAddress = false ∧
      (p.withArea presence area).stationAddress ≠ 0 := by
    rcases rstation with hb | hb
    · simpa [Params.withArea, hb] using ⟨hgroup, hzero⟩
    · exact hb
  have kept : ∀ {bit low high value current : Nat}, low ≤ current ∧ current ≤ high →
      hasBit presence bit = false ∨ low ≤ carried presence bit value current ∧
        carried presence bit value current ≤ high →
      low ≤ carried presence bit value current ∧ carried presence bit value current ≤ high := by
    intro bit low high value current hc hv
    rcases hv with hb | hv
    · simpa [carried, hb] using hc
    · exact hv
  obtain ⟨sl, sh⟩ := kept ⟨hsl, hsh⟩ rsilence
  obtain ⟨kl, kh⟩ := kept ⟨hkl, hkh⟩ rkeep
  obtain ⟨hl, hh⟩ := kept ⟨hhl, hhh⟩ rhold
  obtain ⟨jl, jh⟩ := kept ⟨hjl, hjh⟩ rjoin
  obtain ⟨-, ch⟩ := kept ⟨Nat.zero_le _, hcap⟩ rcap
  obtain ⟨-, lh⟩ := kept ⟨Nat.zero_le _, hlow⟩ rlow
  exact ⟨hstation.1, hstation.2, sl, sh, kl, kh, rless, hl, hh, jl, jh, ch, lh⟩

theorem setParamsWith_params (s : State) (presence : Nat) (area : List Byte) :
    (setParamsWith s presence area).2 = s ∨
      (s.params.withArea presence area).inRange presence area = true ∧
        (setParamsWith s presence area).2 = { s with params := s.params.withArea presence area } := by
  unfold setParamsWith
  simp only
  split_ifs with hr
  · exact .inl rfl
  · exact .inl rfl
  · exact .inl rfl
  · exact .inr ⟨by simpa using hr, rfl⟩

/-! ### The laws through the commands that change the configuration -/

namespace State.ConfigurationLaws

variable {s : State}

theorem banksInRange (h : s.ConfigurationLaws) (bank : BankId) :
    (s.tables.bank bank).ProfilesInRange ∧ (s.tables.bank bank).EntriesInRange :=
  ⟨h.profiles bank, fun i => ⟨h.ranges bank i, h.fallbacks bank i⟩⟩

/-- R119, R125: the shadow bank is replaced by a bank in range; no reader of the active bank sees it. -/
theorem setShadow (h : s.ConfigurationLaws) {b : Bank} (hp : b.ProfilesInRange) (he : b.EntriesInRange) :
    ({ s with tables := s.tables.setShadow b } : State).ConfigurationLaws := by
  have banks : ∀ id, ((s.tables.setShadow b).bank id).ProfilesInRange ∧
      ((s.tables.setShadow b).bank id).EntriesInRange := by
    intro id
    rcases setShadow_bank s.tables b id with e | e <;> rw [e]
    · exact ⟨hp, he⟩
    · exact h.banksInRange id
  exact {
    profiles := fun id => (banks id).1
    ranges := fun id i => ((banks id).2 i).1
    fallbacks := fun id i => ((banks id).2 i).2
    noDangling := fun i => by
      show (s.tables.setShadow b).activeBank.dangling i = false
      rw [(setShadow_active s.tables b).2]
      exact h.noDangling i
    params := h.params
    fuses := h.fuses }

theorem writeTableWork (h : s.ConfigurationLaws) (r : Request) : (writeTableWork r s).2.ConfigurationLaws := by
  unfold Machine.writeTableWork
  simp only
  split
  · split
    · next hl =>
      unfold writeShadow
      split
      · exact h
      · next hb =>
        obtain ⟨hp, he⟩ := h.banksInRange (BankId.other s.tables.active)
        exact h.setShadow (writeEntries_inRange hp hb) (writeEntries_entriesInRange he (by simp [hl.1]) hb)
    · exact h
  · exact h

theorem copyBankWork (h : s.ConfigurationLaws) (r : Request) : (copyBankWork r s).2.ConfigurationLaws := by
  unfold Machine.copyBankWork bodyless
  split
  · exact h.setShadow (h.banksInRange _).1 (h.banksInRange _).2
  · exact h

/-- R128, R130: the bank that becomes active has no dangling entry. -/
theorem commitBanks (h : s.ConfigurationLaws) (hd : s.tables.shadowBank.firstDangling = none) :
    s.commitBanks.ConfigurationLaws where
  profiles := h.profiles
  ranges := h.ranges
  fallbacks := h.fallbacks
  noDangling i := Bool.eq_false_iff.2 (List.find?_eq_none.1 hd i (List.mem_finRange i))
  params := h.params
  fuses := h.fuses

theorem commitWork (h : s.ConfigurationLaws) (r : Request) : (commitWork r s).2.ConfigurationLaws := by
  unfold Machine.commitWork
  split
  · unfold commitBank
    split
    · exact h
    · split
      · exact h
      · next hd =>
        split
        · exact h
        · exact h.commitBanks hd
  · exact h

theorem setParamsWork (h : s.ConfigurationLaws) (r : Request) : (setParamsWork r s).2.ConfigurationLaws := by
  unfold Machine.setParamsWork
  split
  · rcases setParamsWith_params s (byteAt r.body 0) (r.body.drop 1) with e | ⟨hr, e⟩ <;> rw [e]
    · exact h
    · exact { h with params := withArea_sound h.params hr }
  · exact h

/-- R48, R106, R118, R148: the power-on values, with the fuses as they were. -/
theorem powerOn (h : s.ConfigurationLaws) (draws : Nat) (pending : List Instr) :
    (State.powerOn s.unitId draws pending).ConfigurationLaws where
  profiles bank f := by cases bank <;> exact (congrArg _ (readAt_replicate _ f)).trans Profile.initial_inRange
  ranges bank i := by
    cases bank <;> exact (readAt_replicate ClassEntry.initial i).symm ▸ ⟨by simp [ClassEntry.initial], by
      simp [ClassEntry.initial]⟩
  fallbacks bank i := by cases bank <;> exact (readAt_replicate ClassEntry.initial i).symm ▸ rfl
  noDangling i := by
    have : Bank.initial.dangling i = false := by
      simp [Bank.dangling, Bank.initial, ClassEntry.initial]
    exact this
  params := by
    obtain ⟨hgroup, hzero⟩ := h.fuses
    exact ⟨hgroup, hzero, by simp [State.powerOn, Params.initial]⟩
  fuses := h.fuses

theorem execute {t : State} (h : s.ConfigurationLaws) {named : Byte → Bool}
    {work : Request → State → Answer × State} (e : s.execute named work = .next t)
    (hw : ∀ r u, u.ConfigurationLaws → (work r u).2.ConfigurationLaws) : t.ConfigurationLaws := by
  unfold State.execute at e
  split at e
  · cases e; exact h
  · next r _ =>
    split at e
    · cases e
      refine State.ConfigurationLaws.congr ?_ (finish_config _)
      have hb : (s.begin r).ConfigurationLaws := h.congr (begin_config s r)
      unfold State.executeRequest
      split
      · exact hb.congr (refuseUnbound_config _ r)
      · exact (hw r _ hb).congr (answerRequest_config _ r _)
    · cases e; exact h

end State.ConfigurationLaws

theorem exec_keeps_configurationLaws {c : Instr} {s t : State} (h : s.ConfigurationLaws) (e : exec c s = .next t) :
    t.ConfigurationLaws := by
  cases hc : configures c with
  | false => exact h.congr (exec_keepsConfig hc s t e)
  | true =>
    cases c with
    | powerOnReset => cases e; exact h.powerOn _ _
    | writeTable =>
      exact h.execute (named := (· == codeWriteTable)) (work := writeTableWork) e fun r u hu => hu.writeTableWork r
    | copyBank =>
      exact h.execute (named := (· == codeCopyBank)) (work := copyBankWork) e fun r u hu => hu.copyBankWork r
    | commit =>
      exact h.execute (named := (· == codeCommit)) (work := commitWork) e fun r u hu => hu.commitWork r
    | setParams =>
      exact h.execute (named := (· == codeSetParams)) (work := setParamsWork) e fun r u hu => hu.setParamsWork r
    | _ => cases hc

/-- R121, R124, R128, R163: a step keeps the configuration laws. -/
theorem step_keeps_configurationLaws {s t : State} (h : s.ConfigurationLaws) (e : step s = .next t) :
    t.ConfigurationLaws := by
  unfold step at e
  split at e
  · cases e; exact h.congr (tick_config s)
  · next c rest _ =>
    exact exec_keeps_configurationLaws (s := s.withPending rest) (h.congr (withPending_config s rest)) e

end Sys2Proof.Machine

section
open Sys2Proof Sys2Proof.Machine

/-- Settles O14: the reset and four requests change the configuration, each keeps the laws; nothing else does. -/
theorem configurationLawsKept : Obligations.ConfigurationLawsKept := fun _ _ => step_keeps_configurationLaws

end

namespace Sys2Proof.Machine

/-! ## Requests on the banks (R119, R126 to R130) -/

theorem exec_copyBank (s : State) : exec .copyBank s = s.execute (· == codeCopyBank) copyBankWork := rfl

theorem exec_commit (s : State) : exec .commit s = s.execute (· == codeCommit) commitWork := rfl

/-- R125: a change of the shadow bank, read back. -/
theorem setShadow_shadowBank (t : TableStore) (b : Bank) : (t.setShadow b).shadowBank = b := by
  cases h : t.active <;> simp [TableStore.setShadow, TableStore.shadowBank, TableStore.bank, BankId.other, h]

theorem setShadow_generation (t : TableStore) (b : Bank) : (t.setShadow b).generation = t.generation := by
  cases h : t.active <;> simp [TableStore.setShadow, h]

/-- R156: a request that answers OK and has replaced the shadow bank, and changed nothing else. -/
theorem request_setsShadow {s : State} {r : Request} {code : Byte} {c : Instr} {named : Byte → Bool}
    {work : Request → State → Answer × State} {b : Bank} (h : s.Takes r code) (hc : exec c s = s.execute named work)
    (hn : named code = true)
    (hw : work r (s.begin r) =
      (⟨.ok, generationBytes s⟩, { s.begin r with tables := s.tables.setShadow b })) :
    ∃ t, exec c s = .next t.finish ∧ s.Answers t r .ok (beBytes 4 s.tables.generation.toNat) s.engine.linkReply ∧
      s.EngineKept t ∧ t.notices = s.notices ∧ t.tables.shadowBank = b ∧
      t.tables.activeBank = s.tables.activeBank ∧ t.tables.active = s.tables.active ∧
      t.tables.generation = s.tables.generation ∧ s.Unchanged [.tables, .engine, .wire, .notices] t := by
  obtain ⟨t, e, hans, hkept, hnot, hrest⟩ := request_unmarked h hc hn hw rfl rfl h.unmarked
  have htables : t.tables = s.tables.setShadow b := hrest.tables (by simp)
  refine ⟨t, e, hans, hkept, hnot, ?_, ?_, ?_, ?_, ?_⟩
  · rw [htables, setShadow_shadowBank]
  · rw [htables, (setShadow_active _ _).2]
  · rw [htables, (setShadow_active _ _).1]
  · rw [htables, setShadow_generation]
  · refine State.Unchanged.trans (l := [.engine, .tables]) ?_ hrest fun q hq => by simp_all
    constructor <;> simp [begin_eq]

theorem copyBankWork_of_empty {r : Request} (h : r.body = []) (s : State) :
    copyBankWork r s = (⟨.ok, generationBytes s⟩, { s with tables := s.tables.setShadow s.tables.activeBank }) :=
  bodyless_of_empty h s _

/-! ### COMMIT (R127 to R130) -/

/-- R130: the banks change places. -/
theorem swap_banks (t : TableStore) : t.swap.activeBank = t.shadowBank ∧ t.swap.shadowBank = t.activeBank ∧
    t.swap.active ≠ t.active := by
  cases h : t.active <;>
    simp [TableStore.swap, TableStore.activeBank, TableStore.shadowBank, TableStore.bank, BankId.other, h]

/-- R128: a valid entry names a flow that is DISABLED in the same bank. -/
theorem dangling_iff (b : Bank) (i : Fin 128) : b.dangling i = true ↔ (readAt b.entries i).valid = true ∧
    ∃ f, (readAt b.entries i).action = .flow f ∧ (readAt b.profiles f).mode = .disabled := by
  unfold Bank.dangling
  cases h : (readAt b.entries i).action <;> simp [h]

/-- R129: the structural fields. -/
theorem sameStructure_iff (p q : Profile) : p.sameStructure q = true ↔
    p.mode = q.mode ∧ p.window = q.window ∧ p.order = q.order ∧ p.reserve = q.reserve ∧ p.cap = q.cap := by
  simp [Profile.sameStructure, and_assoc]

/-- R129: a flow that is not CLOSED or holds a buffer would change a structural field. -/
theorem structureChanges_iff (s : State) (f : FlowId) : s.structureChanges f = true ↔
    ((s.flow f).state ≠ .closed ∨ 0 < s.held f) ∧
      ¬ ((readAt s.tables.shadowBank.profiles f).mode = (s.profile f).mode ∧
        (readAt s.tables.shadowBank.profiles f).window = (s.profile f).window ∧
        (readAt s.tables.shadowBank.profiles f).order = (s.profile f).order ∧
        (readAt s.tables.shadowBank.profiles f).reserve = (s.profile f).reserve ∧
        (readAt s.tables.shadowBank.profiles f).cap = (s.profile f).cap) := by
  rw [State.structureChanges, Bool.and_eq_true, ← sameStructure_iff, Bool.not_eq_true', Bool.not_eq_true]
  simp

/-- R128, R129: the search of a fixed table, by what its test means. -/
theorem find?_finRange_of_first {n : Nat} {p : Fin n → Bool} {P : Fin n → Prop} (hp : ∀ i, p i = true ↔ P i)
    {i : Fin n} (hi : P i) (hfirst : ∀ j, j < i → ¬ P j) : (List.finRange n).find? p = some i :=
  find?_finRange_eq_some_iff.2 ⟨(hp i).2 hi, fun j hj => Bool.eq_false_iff.2 fun h => hfirst j hj ((hp j).1 h)⟩

theorem find?_finRange_of_none {n : Nat} {p : Fin n → Bool} {P : Fin n → Prop} (hp : ∀ i, p i = true ↔ P i)
    (h : ∀ i, ¬ P i) : (List.finRange n).find? p = none :=
  List.find?_eq_none.2 fun i _ hi => h i ((hp i).1 hi)

theorem commitWork_of_body {r : Request} {expected : BitVec 32} (h : r.body = beBytes 4 expected.toNat) (s : State) :
    commitWork r s = commitBank s expected := by
  have hfield : field (beBytes 4 expected.toNat) 0 4 = expected.toNat := by
    simpa using field_word (w := 32) (size := 4) rfl expected []
  rw [commitWork, h, if_pos (beBytes_length _ _), hfield, BitVec.ofNat_toNat, BitVec.setWidth_eq]

theorem commitBank_stale {s : State} {expected : BitVec 32} (h : expected ≠ s.tables.generation) :
    commitBank s expected = (⟨.staleGeneration, generationBytes s⟩, s) := if_pos h

theorem commitBank_dangling {s : State} {i : Fin 128} (h : s.tables.shadowBank.firstDangling = some i) :
    commitBank s s.tables.generation = (⟨.danglingFlow, beBytes 1 i.val⟩, s) := by
  simp [commitBank, h]

theorem commitBank_structural {s : State} {f : FlowId} (hd : s.tables.shadowBank.firstDangling = none)
    (h : s.firstStructureChange = some f) :
    commitBank s s.tables.generation = (⟨.structuralChange, beBytes 1 f.val⟩, s) := by
  simp [commitBank, hd, h]

theorem commitBank_swaps {s : State} (hd : s.tables.shadowBank.firstDangling = none)
    (h : s.firstStructureChange = none) :
    commitBank s s.tables.generation = (⟨.ok, beBytes 4 (s.tables.generation + 1).toNat⟩, s.commitBanks) := by
  simp [commitBank, hd, h, generationBytes, State.commitBanks, TableStore.swap]

end Sys2Proof.Machine

section
open Sys2Proof Sys2Proof.Machine

/-- Settles O53: the work of a COPY_BANK is the replacement of the shadow bank by the active bank. -/
theorem copyBankCopies : Obligations.CopyBankCopies := fun s _ h hb =>
  request_setsShadow h (exec_copyBank s) rfl (copyBankWork_of_empty hb _)

/-- Settles O54: the three checks in their order, and the swap when all pass. -/
theorem commitChecksAndSwaps : Obligations.CommitChecksAndSwaps := by
  intro s r expected h hbody b dangles changes
  have answers : ∀ {status body}, commitBank (s.begin r) expected = (⟨status, body⟩, s.begin r) →
      s.answersOnly .commit r status body := fun e =>
    answersOnly_of h exec_commit rfl ((commitWork_of_body hbody _).trans e)
  have dangling : ∀ i, b.dangling i = true ↔ dangles i := dangling_iff b
  have changing : ∀ f, (s.begin r).structureChanges f = true ↔ changes f := structureChanges_iff (s.begin r)
  refine ⟨fun hne => answers (commitBank_stale hne), fun hexp => ?_⟩
  subst hexp
  refine ⟨fun i hi hfirst => ?_, fun hd f hf hfirst => ?_, fun hd hs => ?_⟩
  · exact answers (commitBank_dangling (s := s.begin r) (find?_finRange_of_first dangling hi hfirst))
  · exact answers (commitBank_structural (s := s.begin r) (find?_finRange_of_none dangling hd)
      (find?_finRange_of_first changing hf hfirst))
  · have hswap := commitBank_swaps (s := s.begin r) (find?_finRange_of_none dangling hd)
      (find?_finRange_of_none changing hs)
    obtain ⟨t, e, hans, hkept, hnot, hrest⟩ := request_unmarked h (exec_commit s) rfl
      ((commitWork_of_body hbody _).trans hswap) rfl rfl h.unmarked
    have htables : t.tables = s.tables.swap := hrest.tables (by simp)
    obtain ⟨hactive, hshadow, hne⟩ := swap_banks s.tables
    refine ⟨t, e, hans, hkept, hnot, htables ▸ hactive, htables ▸ hshadow, htables ▸ hne, htables ▸ rfl,
      fun i => ?_, ?_⟩
    · rw [hrest.hits (by simp)]
      exact readAt_replicate 0 i
    · refine State.Unchanged.trans (l := [.engine, .tables, .hits]) ?_ hrest fun q hq => by simp_all
      constructor <;> simp [begin_eq, State.commitBanks]

end

namespace Sys2Proof.Machine

/-! ## Bytes of a body and of an entry (section 11) -/

@[simp] theorem byteAt_cons_zero (b : Byte) (rest : List Byte) : byteAt (b :: rest) 0 = b.toNat :=
  byteAt_append_cons [] b rest

@[simp] theorem byteAt_cons_succ (b : Byte) (rest : List Byte) (k : Nat) :
    byteAt (b :: rest) (k + 1) = byteAt rest k := rfl

theorem slice_skip {before after : List Byte} {offset size : Nat} (h : before.length ≤ offset) :
    slice (before ++ after) offset size = slice after (offset - before.length) size := by
  rw [slice, slice, drop_skip h]

theorem slice_front {value after : List Byte} {size : Nat} (h : value.length = size) :
    slice (value ++ after) 0 size = value :=
  slice_between (before := []) rfl h

theorem field_beBytes_end {size v : Nat} (h : v < 256 ^ size) : field (beBytes size v) 0 size = v := by
  simpa using field_beBytes h []

/-! ### Flag bytes -/

/-- The number whose bits are given marks, bit 0 first. -/
def flagBits (marks : List Bool) : Nat := marks.foldr (fun b n => b.toNat + 2 * n) 0

theorem flagBits_testBit (marks : List Bool) (i : Nat) : (flagBits marks).testBit i = marks.getD i false := by
  induction marks generalizing i with
  | nil => simp [flagBits]
  | cons b rest ih =>
    have hcons : flagBits (b :: rest) = b.toNat + 2 * flagBits rest := rfl
    cases i with
    | zero => cases b <;> simp [hcons, Nat.testBit_zero]
    | succ i =>
      have hdiv : flagBits (b :: rest) / 2 = flagBits rest := by
        rw [hcons]
        have := b.toNat_le
        omega
      simpa [Nat.testBit_succ, hdiv] using ih i

theorem flagBits_lt (marks : List Bool) : flagBits marks < 2 ^ marks.length := by
  induction marks with
  | nil => simp [flagBits]
  | cons b rest ih =>
    have hcons : flagBits (b :: rest) = b.toNat + 2 * flagBits rest := rfl
    have := b.toNat_le
    rw [hcons, List.length_cons, Nat.pow_succ]
    omega

theorem bitOf_eq (mark : Bool) (k : Nat) : bitOf mark k = mark.toNat * 2 ^ k := by
  cases mark <;> simp [bitOf]

/-! ### Codes that read back (Table 11.10) -/

@[simp] theorem modeOfCode_code (m : ProfileMode) : modeOfCode (ProfileMode.code m) = some m := by cases m <;> rfl
@[simp] theorem orderOfCode_code (m : OrderMode) : orderOfCode (OrderMode.code m) = some m := by cases m <;> rfl
@[simp] theorem exhaustionOfCode_code (p : ExhaustionPolicy) : exhaustionOfCode (ExhaustionPolicy.code p) = some p := by
  cases p <;> rfl
@[simp] theorem bankOfCode_code (bank : BankId) : bankOfCode (BankId.code bank) = some bank := by
  cases bank <;> rfl
@[simp] theorem classOfByte_val (c : PortClass) : classOfByte c.val = some c := dif_pos c.isLt
@[simp] theorem flowOfByte_val (f : FlowId) : flowOfByte f.val = some f := dif_pos f.isLt

theorem modeCode_lt (m : ProfileMode) : ProfileMode.code m < 256 := by cases m <;> decide
theorem orderCode_lt (m : OrderMode) : OrderMode.code m < 256 := by cases m <;> decide
theorem exhaustionCode_lt (p : ExhaustionPolicy) : ExhaustionPolicy.code p < 256 := by cases p <;> decide

/-! ### Profiles and default actions (Table 11.7) -/

theorem profileBytes_length (p : Profile) : (profileBytes p).length = 15 := by
  simp [profileBytes]

theorem profileOfBytes_profileBytes {p : Profile} (h : p.inRange = true) :
    profileOfBytes (profileBytes p) = some p := by
  have hr := h
  simp only [Profile.inRange, Bool.and_eq_true, decide_eq_true_eq] at hr
  obtain ⟨⟨⟨⟨⟨⟨⟨⟨⟨⟨⟨⟨⟨⟨-, hwindow⟩, hreserve⟩, -⟩, hcap⟩, -⟩, -⟩, hretry⟩, -⟩, hrto⟩, hbackoff⟩, -⟩, hack⟩, -⟩,
    hdelay⟩ := hr
  simp [profileOfBytes, profileBytes, byteAt, List.append_assoc, field_skip, field_beBytes, field_beBytes_end,
    modeCode_lt, orderCode_lt, exhaustionCode_lt, show p.window < 256 by omega, show p.reserve < 256 by omega,
    show p.cap < 65536 by omega, show p.retryLimit < 256 by omega, show p.rtoBase < 65536 by omega,
    show p.backoffLimit < 256 by omega, show p.ackEvery < 256 by omega, show p.ackDelay < 256 by omega,
    show p.linkClass.val < 256 by omega, show p.wireClass.val < 256 by omega, h]

theorem toNat_class (c : PortClass) : (BitVec.ofNat 8 c.val).toNat = c.val := by
  simp; omega

theorem toNat_flow (f : FlowId) : (BitVec.ofNat 8 f.val).toNat = f.val := by
  simp; omega

@[simp] theorem plainActionBytes_length (a : PlainAction) : (plainActionBytes a).length = 2 := by
  cases a <;> rfl

@[simp] theorem entryActionBytes_length (a : EntryAction) : (entryActionBytes a).length = 2 := by
  cases a <;> rfl

theorem plainActionOfBytes_plainActionBytes (a : PlainAction) (after : List Byte) :
    plainActionOfBytes (byteAt (plainActionBytes a ++ after) 0) (byteAt (plainActionBytes a ++ after) 1) = some a := by
  cases a with
  | discard => rfl
  | bulk cls => simp [plainActionBytes, plainActionOfBytes, toNat_class, -BitVec.toNat_ofNat]

theorem entryActionOfBytes_entryActionBytes (a : EntryAction) (after : List Byte) :
    entryActionOfBytes (byteAt (entryActionBytes a ++ after) 0) (byteAt (entryActionBytes a ++ after) 1) = some a := by
  cases a with
  | discard => rfl
  | bulk cls => simp [entryActionBytes, entryActionOfBytes, toNat_class, -BitVec.toNat_ofNat]
  | flow f => simp [entryActionBytes, entryActionOfBytes, toNat_flow, -BitVec.toNat_ofNat]

/-! ### Classification entries (Table 11.7, R183) -/

/-- R183: a field that is present exactly when its mark is set, and reads back when it is present. -/
theorem optionalField_isSome {α : Type} {m : Option α} {read : Option α} (h : ∀ x, m = some x → read = some x) :
    optionalField m.isSome read = some m := by
  cases m with
  | none => rfl
  | some x => simp [optionalField, h x rfl]

theorem vlanField_lt (m : Option VlanMatch) : vlanField m < 65536 := by
  rcases m with _ | _ | vid
  · decide
  · decide
  · have := vid.isLt
    simp only [vlanField]
    omega

theorem vlanOfField_vlanField (v : VlanMatch) : vlanOfField (vlanField (some v)) = some v := by
  cases v with
  | untagged => rfl
  | id vid =>
    have := vid.isLt
    simp [vlanField, vlanOfField, show vid.toNat ≠ 65535 by omega, this]

theorem priorityOfBytes_toNat {r : BitVec 3 × BitVec 3} (h : r.1 ≤ r.2) :
    priorityOfBytes r.1.toNat r.2.toNat = some r := by
  have := r.2.isLt
  have hle : r.1.toNat ≤ r.2.toNat := h
  simp [priorityOfBytes, hle, show r.2.toNat ≤ 7 by omega]

theorem patternBytes_length {m : Option PayloadPattern} (h : ∀ p ∈ m, p.bytes.length ≤ 4) :
    (patternBytes m).length = 10 := by
  cases m with
  | none => rfl
  | some p =>
    have := h p rfl
    simp [patternBytes, length_padTo]
    omega

/-- R183: what is read of the padded bytes is what was there before the padding. -/
theorem zip_padTo_take (bytes : List (Byte × Byte)) (n : Nat) :
    ((padTo n (bytes.map (·.1))).zip (padTo n (bytes.map (·.2)))).take bytes.length = bytes := by
  rw [padTo, padTo, List.zip_append (by simp), List.take_left' (by simp), List.zip_map']
  simp

theorem patternOfBytes_patternBytes {m : Option PayloadPattern} {p : PayloadPattern} (hm : m = some p)
    (ho : p.offset ≤ 127) (h1 : 1 ≤ p.bytes.length) (h4 : p.bytes.length ≤ 4) (after : List Byte) :
    let e := patternBytes m ++ after
    patternOfBytes (byteAt e 0) (byteAt e 1) (slice e 2 4) (slice e 6 4) = some p := by
  subst hm
  have hpad : ∀ l : List Byte, l.length = p.bytes.length → (padTo 4 l).length = 4 := by
    intro l hl
    rw [length_padTo, hl]
    omega
  have hvalues := hpad (p.bytes.map (·.1)) (by simp)
  have hmasks := hpad (p.bytes.map (·.2)) (by simp)
  simp [patternBytes, byteAt, List.append_assoc, field_skip, field_beBytes, slice_skip, slice_front, hvalues, hmasks,
    patternOfBytes, zip_padTo_take, show p.offset < 256 by omega, show p.bytes.length < 256 by omega, ho, h1, h4]

/-- R183: the marks of the presence byte of an entry. -/
def ClassEntry.marks (e : ClassEntry) : List Bool :=
  [e.valid, e.destination.isSome, e.source.isSome, e.etherType.isSome, e.vlan.isSome, e.priority.isSome,
    e.pattern.isSome, e.fallback.isSome]

theorem classEntryBytes_eq (e : ClassEntry) : classEntryBytes e =
    beBytes 1 (flagBits e.marks) ++ beBytes 6 ((e.destination.map (·.toNat)).getD 0) ++
      beBytes 6 ((e.source.map (·.toNat)).getD 0) ++ beBytes 2 ((e.etherType.map (·.toNat)).getD 0) ++
      beBytes 2 (vlanField e.vlan) ++ beBytes 1 ((e.priority.map (·.1.toNat)).getD 0) ++
      beBytes 1 ((e.priority.map (·.2.toNat)).getD 0) ++ patternBytes e.pattern ++ entryActionBytes e.action ++
      ((e.fallback.map plainActionBytes).getD [0, 0]) := by
  have hmarks : bitOf e.valid 0 + bitOf e.destination.isSome 1 + bitOf e.source.isSome 2 +
      bitOf e.etherType.isSome 3 + bitOf e.vlan.isSome 4 + bitOf e.priority.isSome 5 +
      bitOf e.pattern.isSome 6 + bitOf e.fallback.isSome 7 = flagBits e.marks := by
    simp only [bitOf_eq, flagBits, ClassEntry.marks, List.foldr]
    ring
  rw [classEntryBytes, hmarks]

theorem classEntryBytes_length {e : ClassEntry} (h : ∀ p ∈ e.pattern, p.bytes.length ≤ 4) :
    (classEntryBytes e).length = 33 := by
  cases hf : e.fallback <;> simp [classEntryBytes, patternBytes_length h, hf]

/-- R183: an absent word is written as zero. -/
theorem field_optional {w size : Nat} (hw : w = 8 * size) (m : Option (BitVec w)) (after : List Byte) :
    field (beBytes size ((m.map (·.toNat)).getD 0) ++ after) 0 size = (m.map (·.toNat)).getD 0 := by
  cases m with
  | none => exact field_beBytes (by positivity) after
  | some x => exact field_word hw x after

/-- R183: a word reads back as it was, absent or present. -/
theorem ofNat_present {w : Nat} (m : Option (BitVec w)) :
    (if m.isSome then some (BitVec.ofNat w ((m.map (·.toNat)).getD 0)) else none) = m := by
  cases m <;> simp

theorem getD_map_lt {α : Type} (m : Option α) {g : α → Nat} {n : Nat} (hn : 0 < n) (h : ∀ x, g x < n) :
    (m.map g).getD 0 < n := by
  cases m with
  | none => exact hn
  | some x => exact h x

theorem classEntryOfBytes_classEntryBytes {e : ClassEntry} (hf : fallbackFits e.action e.fallback = true)
    (hr : ∀ r ∈ e.priority, r.1 ≤ r.2)
    (hp : ∀ p ∈ e.pattern, p.offset ≤ 127 ∧ 1 ≤ p.bytes.length ∧ p.bytes.length ≤ 4) :
    classEntryOfBytes (classEntryBytes e) = some e := by
  have hten : (patternBytes e.pattern).length = 10 := patternBytes_length fun p hm => (hp p hm).2.2
  have hmarks : flagBits e.marks < 256 := by simpa [ClassEntry.marks] using flagBits_lt e.marks
  have hvlan := vlanField_lt e.vlan
  have hlow := getD_map_lt e.priority (g := (·.1.toNat)) (n := 256) (by decide) fun r => by omega
  have hhigh := getD_map_lt e.priority (g := (·.2.toNat)) (n := 256) (by decide) fun r => by omega
  generalize hbytes : classEntryBytes e = bytes
  rw [classEntryBytes_eq] at hbytes
  have b0 : byteAt bytes 0 = flagBits e.marks := by
    simp [← hbytes, byteAt, List.append_assoc, field_beBytes, hmarks]
  have b1 : field bytes 1 6 = (e.destination.map (·.toNat)).getD 0 := by
    simp [← hbytes, List.append_assoc, field_skip, field_optional]
  have b7 : field bytes 7 6 = (e.source.map (·.toNat)).getD 0 := by
    simp [← hbytes, List.append_assoc, field_skip, field_optional]
  have b13 : field bytes 13 2 = (e.etherType.map (·.toNat)).getD 0 := by
    simp [← hbytes, List.append_assoc, field_skip, field_optional]
  have b15 : field bytes 15 2 = vlanField e.vlan := by
    simp [← hbytes, List.append_assoc, field_skip, field_beBytes, hvlan]
  have b17 : byteAt bytes 17 = (e.priority.map (·.1.toNat)).getD 0 := by
    simp [← hbytes, byteAt, List.append_assoc, field_skip, field_beBytes, hlow]
  have b18 : byteAt bytes 18 = (e.priority.map (·.2.toNat)).getD 0 := by
    simp [← hbytes, byteAt, List.append_assoc, field_skip, field_beBytes, hhigh]
  have vlan : optionalField e.vlan.isSome (vlanOfField (vlanField e.vlan)) = some e.vlan :=
    optionalField_isSome fun v hv => by rw [hv, vlanOfField_vlanField]
  have priority : optionalField e.priority.isSome (priorityOfBytes ((e.priority.map (·.1.toNat)).getD 0)
      ((e.priority.map (·.2.toNat)).getD 0)) = some e.priority :=
    optionalField_isSome fun r h => by
      rw [h]
      exact priorityOfBytes_toNat (hr r h)
  have pattern : optionalField e.pattern.isSome (patternOfBytes (byteAt bytes 19) (byteAt bytes 20)
      (slice bytes 21 4) (slice bytes 25 4)) = some e.pattern :=
    optionalField_isSome fun p h => by
      obtain ⟨ho, h1, h4⟩ := hp p h
      simpa [← hbytes, byteAt, List.append_assoc, field_skip, slice_skip] using
        patternOfBytes_patternBytes h ho h1 h4 _
  have action : entryActionOfBytes (byteAt bytes 29) (byteAt bytes 30) = some e.action := by
    simpa [← hbytes, byteAt, List.append_assoc, field_skip, hten] using entryActionOfBytes_entryActionBytes e.action _
  have fallback : optionalField e.fallback.isSome (plainActionOfBytes (byteAt bytes 31) (byteAt bytes 32)) =
      some e.fallback :=
    optionalField_isSome fun a h => by
      simpa [← hbytes, byteAt, List.append_assoc, field_skip, hten, h] using plainActionOfBytes_plainActionBytes a []
  simp only [classEntryOfBytes, b0, b1, b7, b13, b15, b17, b18, hasBit, flagBits_testBit]
  simp [ClassEntry.marks, vlan, priority, pattern, action, fallback, hf, ofNat_present]

end Sys2Proof.Machine

section
open Sys2Proof Sys2Proof.Machine

/-- Settles O16: the three kinds of table entry, byte by byte. -/
theorem tableEntriesRoundTrip : Obligations.TableEntriesRoundTrip :=
  ⟨fun p h => ⟨profileBytes_length p, profileOfBytes_profileBytes h⟩,
    fun a => ⟨plainActionBytes_length a, by simpa [defaultOfBytes] using plainActionOfBytes_plainActionBytes a []⟩,
    fun _ hf hr hp => ⟨classEntryBytes_length fun p h => (hp p h).2.2, classEntryOfBytes_classEntryBytes hf hr hp⟩⟩

end

namespace Sys2Proof.Machine

/-! ## READ_TABLE (R122) -/

theorem exec_readTable (s : State) : exec .readTable s = s.execute (· == codeReadTable) readTableWork := rfl

/-- Table 11.10: the three table codes. -/
theorem tableOfCode_eq_some {table : Byte} {t : TableName} (h : tableOfCode table.toNat = some t) :
    (table = 0 ∧ t = .classification) ∨ (table = 1 ∧ t = .profile) ∨ (table = 2 ∧ t = .default) := by
  unfold tableOfCode at h
  split at h
  · next e => exact .inl ⟨BitVec.eq_of_toNat_eq e, (Option.some.inj h).symm⟩
  · next e => exact .inr (.inl ⟨BitVec.eq_of_toNat_eq e, (Option.some.inj h).symm⟩)
  · next e => exact .inr (.inr ⟨BitVec.eq_of_toNat_eq e, (Option.some.inj h).symm⟩)
  · cases h

theorem rangeOk_iff (t : TableName) (first count : Nat) :
    t.rangeOk first count = true ↔ 1 ≤ count ∧ count ≤ 16 ∧ first + count ≤ t.size := by
  simp [TableName.rangeOk, and_assoc]

theorem toNat_bankCode (bank : BankId) : (BitVec.ofNat 8 (BankId.code bank)).toNat = BankId.code bank := by
  cases bank <;> rfl

/-- R122, R123: what a table code and a range within its table come to. -/
theorem range_of_rangeOk {table first count : Byte} {t : TableName} (ht : tableOfCode table.toNat = some t)
    (h : t.rangeOk first.toNat count.toNat = true) :
    table.toNat ≤ 2 ∧ count ≠ 0 ∧ count.toNat ≤ 16 ∧
      (table = 0 → t = .classification ∧ first.toNat + count.toNat ≤ 128) ∧
      (table = 1 → t = .profile ∧ first.toNat + count.toNat ≤ 64) ∧
      (table = 2 → t = .default ∧ first.toNat + count.toNat ≤ 1) := by
  obtain ⟨h1, h16, hsize⟩ := (rangeOk_iff ..).1 h
  have hcount : count ≠ 0 := by
    rintro rfl
    simp at h1
  rcases tableOfCode_eq_some ht with ⟨rfl, rfl⟩ | ⟨rfl, rfl⟩ | ⟨rfl, rfl⟩
  · exact ⟨by decide, hcount, h16, fun _ => ⟨rfl, hsize⟩, fun h => absurd h (by decide), fun h => absurd h (by decide)⟩
  · exact ⟨by decide, hcount, h16, fun h => absurd h (by decide), fun _ => ⟨rfl, hsize⟩, fun h => absurd h (by decide)⟩
  · exact ⟨by decide, hcount, h16, fun h => absurd h (by decide), fun h => absurd h (by decide), fun _ => ⟨rfl, hsize⟩⟩

theorem readTableWork_of_body {r : Request} {bank : BankId} {table first count : Byte} {t : TableName}
    (hb : r.body = [BitVec.ofNat 8 (BankId.code bank), table, first, count]) (ht : tableOfCode table.toNat = some t)
    (hr : t.rangeOk first.toNat count.toNat = true) (s : State) :
    readTableWork r s = (⟨.ok, beBytes 1 (BankId.code s.tables.active) ++ generationBytes s ++ r.body ++
      readEntries s bank t first.toNat count.toNat⟩, s) := by
  have hlen : r.body.length = 4 := by rw [hb]; rfl
  simp only [readTableWork, hlen]
  simp [hb, toNat_bankCode, ht, hr, -BitVec.toNat_ofNat]

/-- R122: a body that names no bank, no table or no range of it. -/
theorem readTableWork_refused {r : Request}
    (h : ∀ bank t, bankOfCode (byteAt r.body 0) = some bank → tableOfCode (byteAt r.body 1) = some t →
      ¬ (r.body.length = 4 ∧ t.rangeOk (byteAt r.body 2) (byteAt r.body 3) = true)) (s : State) :
    readTableWork r s = (.plain .badRequest, s) := by
  unfold readTableWork
  simp only
  split
  · next bank t hb ht => exact if_neg (h bank t hb ht)
  · rfl

/-- The entries from an index, read one by one. -/
theorem flatMap_range_eq {α β : Type} {l : List α} {g : α → List β} {f : Nat → List β} {first : Nat}
    (hf : ∀ (i : Nat) (hi : i < l.length), f i = g l[i]) {count : Nat} (h : first + count ≤ l.length) :
    (List.range count).flatMap (fun k => f (first + k)) = ((l.drop first).take count).flatMap g := by
  induction count with
  | zero => simp
  | succ count ih =>
    have hi : first + count < l.length := by omega
    rw [List.range_succ, List.flatMap_append, ih (by omega), List.take_add_one, List.flatMap_append,
      List.getElem?_drop, List.getElem?_eq_getElem hi]
    simp [hf _ hi]

/-- R122: an entry of the classification table, with its hit count when the bank is active. -/
theorem readEntries_classification (s : State) (bank : BankId) {first count : Nat} (h : first + count ≤ 128) :
    readEntries s bank .classification first count =
      ((((s.tables.bank bank).entries.toList.zip s.hits.toList).drop first).take count).flatMap fun e =>
        classEntryBytes e.1 ++ if bank = s.tables.active then beBytes 4 e.2.toNat else [] := by
  refine flatMap_range_eq (f := fun i => (s.tables.bank bank).entryAt .classification i ++
    hitBytes s bank .classification i) (fun i hi => ?_) (by simpa using h)
  have hi : i < 128 := by simpa using hi
  simp [Bank.entryAt, hitBytes, hi]

theorem readEntries_profile (s : State) (bank : BankId) {first count : Nat} (h : first + count ≤ 64) :
    readEntries s bank .profile first count =
      (((s.tables.bank bank).profiles.toList.drop first).take count).flatMap profileBytes := by
  refine flatMap_range_eq (f := fun i => (s.tables.bank bank).entryAt .profile i ++ hitBytes s bank .profile i)
    (fun i hi => ?_) (by simpa using h)
  have hi : i < 64 := by simpa using hi
  simp [Bank.entryAt, hitBytes, hi]

theorem readEntries_default (s : State) (bank : BankId) :
    readEntries s bank .default 0 1 = plainActionBytes (s.tables.bank bank).default := by
  simp [readEntries, Bank.entryAt, hitBytes]

end Sys2Proof.Machine

section
open Sys2Proof Sys2Proof.Machine

/-- Settles O50: the entries of each table read one by one, and the bodies that name no range of a table. -/
theorem readTableAnswers : Obligations.ReadTableAnswers := by
  intro s r bank first count h head b bankByte
  have answers : ∀ {status body}, readTableWork r (s.begin r) = (⟨status, body⟩, s.begin r) →
      s.answersOnly .readTable r status body := answersOnly_of h exec_readTable rfl
  refine ⟨fun hb h1 h16 hr => answers ?_, fun hb h1 h16 hr => answers ?_, fun hb => answers ?_,
    fun table hb hbad => answers ?_⟩
  · rw [readTableWork_of_body hb (t := .classification) rfl ((rangeOk_iff ..).2 ⟨h1, h16, hr⟩),
      readEntries_classification _ _ hr]
    rfl
  · rw [readTableWork_of_body hb (t := .profile) rfl ((rangeOk_iff ..).2 ⟨h1, h16, hr⟩),
      readEntries_profile _ _ hr]
    rfl
  · exact (readTableWork_of_body hb (t := .default) rfl rfl _).trans
      (congrArg (fun e => ((⟨.ok, head ++ e⟩, s.begin r) : Answer × State)) (readEntries_default (s.begin r) bank))
  · refine readTableWork_refused (fun named t _ ht hok => ?_) _
    obtain ⟨-, hok⟩ := hok
    simp only [hb, byteAt_cons_zero, byteAt_cons_succ] at ht hok
    obtain ⟨htable, hzero, h16, hclass, hprofile, hdefault⟩ := range_of_rangeOk ht hok
    rcases hbad with hbad | hbad | hbad | ⟨h0, hbad⟩ | ⟨h0, hbad⟩ | ⟨h0, hbad⟩
    · omega
    · exact hzero hbad
    · omega
    · exact absurd (hclass h0).2 (by omega)
    · exact absurd (hprofile h0).2 (by omega)
    · exact absurd (hdefault h0).2 (by omega)

end

namespace Sys2Proof.Machine

/-! ## WRITE_TABLE (R123 to R125) -/

theorem exec_writeTable (s : State) : exec .writeTable s = s.execute (· == codeWriteTable) writeTableWork := rfl

theorem writeTableWork_of_body {r : Request} {table first count : Byte} {entries : List Byte} {t : TableName}
    (hb : r.body = [table, first, count] ++ entries) (ht : tableOfCode table.toNat = some t)
    (hl : entries.length = count.toNat * t.entryBytes) (hr : t.rangeOk first.toNat count.toNat = true) (s : State) :
    writeTableWork r s = writeShadow s t first.toNat count.toNat entries := by
  have hlen : r.body.length = 3 + count.toNat * t.entryBytes := by
    rw [hb, ← hl, List.length_append]
    rfl
  simp only [writeTableWork, hlen]
  simp [hb, ht, hr]

/-- R123: a body that names no table, no range of it, or has another length. -/
theorem writeTableWork_refused {r : Request}
    (h : ∀ t, tableOfCode (byteAt r.body 0) = some t → ¬ (r.body.length = 3 + byteAt r.body 2 * t.entryBytes ∧
      t.rangeOk (byteAt r.body 1) (byteAt r.body 2) = true)) (s : State) :
    writeTableWork r s = (.plain .badRequest, s) := by
  unfold writeTableWork
  simp only
  split
  · next t ht => exact if_neg (h t ht)
  · rfl

/-- R124: a bad entry ends the writing with its index. -/
theorem writeEntries_bad {b : Bank} {t : TableName} {count i : Nat} {bad rest : List Byte} (hc : 0 < count)
    (hl : bad.length = t.entryBytes) (hbad : b.writeEntry t i bad = none) :
    b.writeEntries t count i (bad ++ rest) = .bad i := by
  obtain ⟨n, rfl⟩ : ∃ n, count = n + 1 := ⟨count - 1, by omega⟩
  rw [Bank.writeEntries, List.take_left' hl, hbad]

theorem writeEntries_good_default {a : PlainAction} {bytes : List Byte} (hl : bytes.length = 2)
    (h : defaultOfBytes bytes = some a) (b : Bank) :
    b.writeEntries .default 1 0 bytes = .written { b with default := a } := by
  simp [Bank.writeEntries, Bank.writeEntry, TableName.entryBytes, List.take_of_length_le hl.le, h]

/-- Table 11.3: the index of an entry behind the first one, as one byte. -/
theorem beBytes_index (first : Byte) (n : Nat) : beBytes 1 (first.toNat + n) = [first + BitVec.ofNat 8 n] := by
  simp [beBytes, BitVec.ofNat_add]

theorem flatMap_profileBytes_length (profiles : List Profile) :
    (profiles.flatMap profileBytes).length = profiles.length * 15 := by
  induction profiles with
  | nil => rfl
  | cons p rest ih =>
    rw [List.flatMap_cons, List.length_append, ih, profileBytes_length, List.length_cons]
    omega

/-- The profiles with the bytes that carry them. -/
theorem carried_profiles {profiles : List Profile} (h : ∀ p ∈ profiles, p.inRange = true) :
    ∃ good : List (List Byte × Profile), good.length = profiles.length ∧
      good.flatMap (·.1) = profiles.flatMap profileBytes ∧ good.map (·.2) = profiles ∧
      ∀ e ∈ good, e.1.length = 15 ∧ profileOfBytes e.1 = some e.2 := by
  refine ⟨profiles.map fun p => (profileBytes p, p), by simp, by simp [List.flatMap_map],
    by simp [Function.comp_def], fun e he => ?_⟩
  obtain ⟨p, hp, rfl⟩ := List.mem_map.1 he
  exact ⟨profileBytes_length p, profileOfBytes_profileBytes (h p hp)⟩

/-- The entries that are carried by their bytes. -/
theorem carried_entries {entries : List (List Byte)}
    (h : ∀ e ∈ entries, e.length = 33 ∧ (classEntryOfBytes e).isSome = true) :
    ∃ good : List (List Byte × ClassEntry), good.length = entries.length ∧
      good.flatMap (·.1) = entries.flatten ∧
      ∀ e ∈ good, e.1.length = 33 ∧ classEntryOfBytes e.1 = some e.2 := by
  induction entries with
  | nil => exact ⟨[], rfl, rfl, by simp⟩
  | cons bytes rest ih =>
    obtain ⟨good, hlen, hflat, hgood⟩ := ih fun e he => h e (by simp [he])
    obtain ⟨hl, hs⟩ := h bytes (by simp)
    obtain ⟨e, he⟩ := Option.isSome_iff_exists.1 hs
    exact ⟨(bytes, e) :: good, by simp [hlen], by simp [hflat], by simpa [hl, he] using hgood⟩

theorem flatMap_fst_length {α : Type} {good : List (List Byte × α)} {n : Nat} (h : ∀ e ∈ good, e.1.length = n) :
    (good.flatMap (·.1)).length = good.length * n := by
  induction good with
  | nil => simp
  | cons e rest ih =>
    rw [List.flatMap_cons, List.length_append, ih fun x hx => h x (by simp [hx]), h e (by simp), List.length_cons,
      Nat.succ_mul, Nat.add_comm]

/-! ### What a WRITE_TABLE comes to -/

section
variable {r : Request} {first count : Byte}

/-- R124, R125: the entries that the body carries are all written. -/
theorem writeTableWork_written {table : Byte} {entries : List Byte} {t : TableName} {s : State} {b : Bank}
    (hb : r.body = [table, first, count] ++ entries) (ht : tableOfCode table.toNat = some t)
    (hl : entries.length = count.toNat * t.entryBytes) (hr : t.rangeOk first.toNat count.toNat = true)
    (hw : s.tables.shadowBank.writeEntries t count.toNat first.toNat entries = .written b) :
    writeTableWork r s = (⟨.ok, generationBytes s⟩, { s with tables := s.tables.setShadow b }) := by
  rw [writeTableWork_of_body hb ht hl hr, writeShadow, hw]

/-- R124: one of the entries that the body carries is bad. -/
theorem writeTableWork_bad {table : Byte} {entries : List Byte} {t : TableName} {s : State} {n : Nat}
    (hb : r.body = [table, first, count] ++ entries) (ht : tableOfCode table.toNat = some t)
    (hl : entries.length = count.toNat * t.entryBytes) (hr : t.rangeOk first.toNat count.toNat = true)
    (hw : s.tables.shadowBank.writeEntries t count.toNat first.toNat entries = .bad (first.toNat + n)) :
    writeTableWork r s = (⟨.badEntry, [first + BitVec.ofNat 8 n]⟩, s) := by
  rw [writeTableWork_of_body hb ht hl hr, writeShadow, hw, ← beBytes_index]

theorem writeTableWork_profiles {profiles : List Profile} (h1 : 1 ≤ profiles.length) (h16 : profiles.length ≤ 16)
    (hr : first.toNat + profiles.length ≤ 64) (hgood : ∀ p ∈ profiles, p.inRange = true)
    (hb : r.body = [1, first, BitVec.ofNat 8 profiles.length] ++ profiles.flatMap profileBytes) (s : State) :
    writeTableWork r s = (⟨.ok, generationBytes s⟩, { s with
      tables := s.tables.setShadow { s.tables.shadowBank with
        profiles := setFrom s.tables.shadowBank.profiles first.toNat profiles } }) := by
  have hcount : (BitVec.ofNat 8 profiles.length).toNat = profiles.length := by simp; omega
  obtain ⟨good, hlen, hflat, hmap, hgood⟩ := carried_profiles hgood
  have hw := writeEntries_profile good first.toNat 0 [] s.tables.shadowBank hgood
  rw [hlen, hflat, hmap, List.append_nil, Nat.add_zero] at hw
  refine writeTableWork_written hb (t := .profile) rfl ?_ ((rangeOk_iff ..).2 ?_) ?_
  · rw [hcount, flatMap_profileBytes_length]
    rfl
  · rw [hcount]
    exact ⟨h1, h16, hr⟩
  · rw [hcount]
    exact hw

theorem writeTableWork_entries {entries : List (List Byte × ClassEntry)} (h1 : 1 ≤ entries.length)
    (h16 : entries.length ≤ 16) (hr : first.toNat + entries.length ≤ 128)
    (hgood : ∀ e ∈ entries, e.1.length = 33 ∧ classEntryOfBytes e.1 = some e.2)
    (hb : r.body = [0, first, BitVec.ofNat 8 entries.length] ++ entries.flatMap (·.1)) (s : State) :
    writeTableWork r s = (⟨.ok, generationBytes s⟩, { s with
      tables := s.tables.setShadow { s.tables.shadowBank with
        entries := setFrom s.tables.shadowBank.entries first.toNat (entries.map (·.2)) } }) := by
  have hcount : (BitVec.ofNat 8 entries.length).toNat = entries.length := by simp; omega
  have hw := writeEntries_classification entries first.toNat 0 [] s.tables.shadowBank hgood
  rw [List.append_nil, Nat.add_zero] at hw
  refine writeTableWork_written hb (t := .classification) rfl ?_ ((rangeOk_iff ..).2 ?_) ?_
  · rw [hcount, flatMap_fst_length fun e he => (hgood e he).1]
    rfl
  · rw [hcount]
    exact ⟨h1, h16, hr⟩
  · rw [hcount]
    exact hw

theorem writeTableWork_default {a : PlainAction} {bytes : List Byte} (hl : bytes.length = 2)
    (ha : defaultOfBytes bytes = some a) (hb : r.body = [2, 0, 1] ++ bytes) (s : State) :
    writeTableWork r s = (⟨.ok, generationBytes s⟩, { s with
      tables := s.tables.setShadow { s.tables.shadowBank with default := a } }) :=
  writeTableWork_written hb (t := .default) rfl hl rfl (writeEntries_good_default hl ha _)

theorem writeTableWork_badProfile {profiles : List Profile} {bad rest : List Byte} (h16 : count.toNat ≤ 16)
    (hr : first.toNat + count.toNat ≤ 64) (hlt : profiles.length < count.toNat)
    (hgood : ∀ p ∈ profiles, p.inRange = true) (hl : bad.length = 15) (hbad : profileOfBytes bad = none)
    (hrest : rest.length = (count.toNat - profiles.length - 1) * 15)
    (hb : r.body = [1, first, count] ++ profiles.flatMap profileBytes ++ bad ++ rest) (s : State) :
    writeTableWork r s = (⟨.badEntry, [first + BitVec.ofNat 8 profiles.length]⟩, s) := by
  obtain ⟨good, hlen, hflat, -, hgood⟩ := carried_profiles hgood
  have hw := writeEntries_profile good first.toNat (count.toNat - profiles.length) (bad ++ rest)
    s.tables.shadowBank hgood
  rw [hlen, hflat, Nat.add_sub_of_le hlt.le] at hw
  rw [List.append_assoc, List.append_assoc] at hb
  refine writeTableWork_bad hb (t := .profile) rfl ?_ ((rangeOk_iff ..).2 ⟨by omega, h16, hr⟩)
    (hw.trans (writeEntries_bad (by omega) hl (by simp [Bank.writeEntry, hbad])))
  simp only [List.length_append, flatMap_profileBytes_length, hl, hrest, TableName.entryBytes]
  omega

theorem writeTableWork_badEntry {entries : List (List Byte)} {bad rest : List Byte} (h16 : count.toNat ≤ 16)
    (hr : first.toNat + count.toNat ≤ 128) (hlt : entries.length < count.toNat)
    (hgood : ∀ e ∈ entries, e.length = 33 ∧ (classEntryOfBytes e).isSome = true) (hl : bad.length = 33)
    (hbad : classEntryOfBytes bad = none) (hrest : rest.length = (count.toNat - entries.length - 1) * 33)
    (hb : r.body = [0, first, count] ++ entries.flatten ++ bad ++ rest) (s : State) :
    writeTableWork r s = (⟨.badEntry, [first + BitVec.ofNat 8 entries.length]⟩, s) := by
  obtain ⟨good, hlen, hflat, hgood⟩ := carried_entries hgood
  have hw := writeEntries_classification good first.toNat (count.toNat - entries.length) (bad ++ rest)
    s.tables.shadowBank hgood
  have hbytes := flatMap_fst_length fun e he => (hgood e he).1
  rw [hlen, hflat, Nat.add_sub_of_le hlt.le] at hw
  rw [hflat, hlen] at hbytes
  rw [List.append_assoc, List.append_assoc] at hb
  refine writeTableWork_bad hb (t := .classification) rfl ?_ ((rangeOk_iff ..).2 ⟨by omega, h16, hr⟩)
    (hw.trans (writeEntries_bad (by omega) hl (by simp [Bank.writeEntry, hbad])))
  simp only [List.length_append, hbytes, hl, hrest, TableName.entryBytes]
  omega

theorem writeTableWork_badDefault {bytes : List Byte} (hl : bytes.length = 2) (hbad : defaultOfBytes bytes = none)
    (hb : r.body = [2, 0, 1] ++ bytes) (s : State) : writeTableWork r s = (⟨.badEntry, [0]⟩, s) := by
  refine writeTableWork_bad hb (n := 0) (t := .default) rfl hl rfl ?_
  simpa using writeEntries_bad (b := s.tables.shadowBank) (t := .default) (rest := []) Nat.one_pos hl
    (by simp [Bank.writeEntry, hbad])

/-- R123: the table code, the range or the length does not fit. -/
theorem writeTableWork_badRequest {table : Byte} {entries : List Byte} (hb : r.body = [table, first, count] ++ entries)
    (hbad : 2 < table.toNat ∨ count = 0 ∨ 16 < count.toNat ∨
      (table = 0 ∧ (128 < first.toNat + count.toNat ∨ entries.length ≠ count.toNat * 33)) ∨
      (table = 1 ∧ (64 < first.toNat + count.toNat ∨ entries.length ≠ count.toNat * 15)) ∨
      (table = 2 ∧ (1 < first.toNat + count.toNat ∨ entries.length ≠ count.toNat * 2))) (s : State) :
    writeTableWork r s = (.plain .badRequest, s) := by
  refine writeTableWork_refused (fun t ht hok => ?_) s
  obtain ⟨hlen, hok⟩ := hok
  have hthree : ([table, first, count] ++ entries).length = 3 + entries.length := by
    rw [List.length_append]
    rfl
  rw [hb, hthree] at hlen
  simp only [hb, byteAt_cons_zero, byteAt_cons_succ, List.cons_append] at ht hok hlen
  obtain ⟨htable, hzero, h16, hclass, hprofile, hdefault⟩ := range_of_rangeOk ht hok
  rcases hbad with hbad | hbad | hbad | ⟨h0, hbad⟩ | ⟨h0, hbad⟩ | ⟨h0, hbad⟩
  · omega
  · exact hzero hbad
  · omega
  · obtain ⟨rfl, hr⟩ := hclass h0
    simp only [TableName.entryBytes] at hlen
    omega
  · obtain ⟨rfl, hr⟩ := hprofile h0
    simp only [TableName.entryBytes] at hlen
    omega
  · obtain ⟨rfl, hr⟩ := hdefault h0
    simp only [TableName.entryBytes] at hlen
    omega

end

end Sys2Proof.Machine

section
open Sys2Proof Sys2Proof.Machine

/-- Settles O52: good entries of each table, the first bad entry of each table, and the bodies refused as a whole. -/
theorem writeTableWrites : Obligations.WriteTableWrites := by
  intro s r first h generation writes b
  have written : ∀ {b' : Bank}, writeTableWork r (s.begin r) =
      (⟨.ok, generationBytes s⟩, { s.begin r with tables := s.tables.setShadow b' }) → writes b' :=
    request_setsShadow h (exec_writeTable s) rfl
  have answers : ∀ {status body}, writeTableWork r (s.begin r) = (⟨status, body⟩, s.begin r) →
      s.answersOnly .writeTable r status body := answersOnly_of h exec_writeTable rfl
  refine ⟨fun profiles h1 h16 hr hgood hb => ?_, fun entries h1 h16 hr hgood hb => ?_,
    fun a bytes hl ha hb => written (writeTableWork_default hl ha hb _),
    fun profiles bad rest count _ h16 hr hlt hgood hl hbad hrest hb =>
      answers (writeTableWork_badProfile h16 hr hlt hgood hl hbad hrest hb _),
    fun entries bad rest count _ h16 hr hlt hgood hl hbad hrest hb =>
      answers (writeTableWork_badEntry h16 hr hlt hgood hl hbad hrest hb _),
    fun bytes hl hbad hb => answers (writeTableWork_badDefault hl hbad hb _),
    fun table count entries hb hbad => answers (writeTableWork_badRequest hb hbad _),
    fun hlen => answers (writeTableWork_refused (fun t _ hok => by omega) _)⟩
  · have hw := written (writeTableWork_profiles h1 h16 hr hgood hb _)
    rw [setFrom_eq] at hw
    exact hw
  · have hw := written (writeTableWork_entries h1 h16 hr hgood hb _)
    rw [setFrom_eq] at hw
    simp only [List.getElem?_map] at hw
    exact hw

end

namespace Sys2Proof.Machine

/-! ## Requests that only answer (R158, R160, R162, R164) -/

theorem exec_identify (s : State) : exec .identify s = s.execute (· == codeIdentify) identifyWork := rfl

theorem exec_bind (s : State) : exec .bind s = s.execute (· == codeBind) bindWork := rfl

theorem exec_unbind (s : State) : exec .unbind s = s.execute (· == codeUnbind) unbindWork := rfl

theorem exec_flowStatus (s : State) : exec .flowStatus s = s.execute (· == codeFlowStatus) flowStatusWork := rfl

theorem exec_linkStatus (s : State) : exec .linkStatus s = s.execute (· == codeLinkStatus) linkStatusWork := rfl

theorem exec_setParams (s : State) : exec .setParams s = s.execute (· == codeSetParams) setParamsWork := rfl

theorem exec_readParams (s : State) : exec .readParams s = s.execute (· == codeReadParams) readParamsWork := rfl

theorem exec_unknownRequest (s : State) : exec .unknownRequest s =
    s.execute (fun code => !requestCodes.contains code) fun _ s => (.plain .badRequest, s) := rfl

/-! ### IDENTIFY (R160) -/

/-- Table 11.6: the identity of the part. -/
def State.identityBytes (s : State) : List Byte :=
  beBytes 6 s.unitId.toNat ++ beBytes 6 s.params.stationAddress.toNat ++ [0x06, 0x04, 0x01]

theorem identifyWork_of_empty {r : Request} (h : r.body = []) (s : State) :
    identifyWork r s = (⟨.ok, s.identityBytes ++ bindingBytes s.engine.binding⟩, s) := by
  rw [identifyWork, bodyless_of_empty h, State.identityBytes]
  simp only [List.append_assoc]
  rfl

/-- Log entry 2: a lease of whole seconds is exact, and any other is rounded down or up. -/
theorem leaseSeconds_eq (remaining : Nat) :
    leaseSeconds remaining = remaining / 1000 ∨ leaseSeconds remaining = (remaining + 999) / 1000 := by
  unfold leaseSeconds
  split_ifs <;> omega

/-! ### LINK_STATUS (R162, Table 11.9) -/

theorem linkStatusWork_of_empty {r : Request} (h : r.body = []) (s : State) :
    linkStatusWork r s = (⟨.ok, s.part.statusBody⟩, s) := bodyless_of_empty h s _

/-- Table 11.9: the marks of the flag byte. -/
def Partnership.marks (p : Partnership) : List Bool :=
  [p.ownEpoch.isSome, p.partnerEpoch.isSome, p.partnerUnit.isSome, p.deferredJoin.isSome, p.leavePending.isSome]

theorem statusBody_eq (p : Partnership) : p.statusBody =
    beBytes 1 (LinkState.code p.state) ++ beBytes 1 (flagBits p.marks) ++
      beBytes 4 ((p.ownEpoch.map (·.toNat)).getD 0) ++ beBytes 4 ((p.partnerEpoch.map (·.toNat)).getD 0) ++
      beBytes 6 ((p.partnerUnit.map (·.toNat)).getD 0) ++ beBytes 2 ((p.deferredJoin.map (·.toNat)).getD 0) := by
  have hmarks : bitOf p.ownEpoch.isSome 0 + bitOf p.partnerEpoch.isSome 1 + bitOf p.partnerUnit.isSome 2 +
      bitOf p.deferredJoin.isSome 3 + bitOf p.leavePending.isSome 4 = flagBits p.marks := by
    simp only [bitOf_eq, flagBits, Partnership.marks, List.foldr]
    ring
  rw [Partnership.statusBody, hmarks]

theorem linkStateCode_lt (l : LinkState) : LinkState.code l < 256 := by cases l <;> decide

theorem getD_map_toNat {w : Nat} (m : Option (BitVec w)) : (m.map (·.toNat)).getD 0 = (m.getD 0).toNat := by
  cases m <;> simp

theorem field_word_end {w size : Nat} (hw : w = 8 * size) (v : BitVec w) :
    field (beBytes size v.toNat) 0 size = v.toNat := by
  simpa using field_word hw v []

theorem statusBody_flags (p : Partnership) : byteAt p.statusBody 1 = flagBits p.marks := by
  have hmarks : flagBits p.marks < 256 := by
    have := flagBits_lt p.marks
    simp only [Partnership.marks, List.length_cons, List.length_nil] at this ⊢
    omega
  simp [statusBody_eq, byteAt, List.append_assoc, field_skip, field_beBytes, hmarks]

/-! ### READ_PARAMS (R164) -/

theorem readParamsWork_of_empty {r : Request} (h : r.body = []) (s : State) :
    readParamsWork r s = (⟨.ok, [0xFF] ++ s.params.areaBytes⟩, s) := bodyless_of_empty h s _

/-- Log entry 29: the bytes of the expected partner. -/
theorem areaBytes_eq (p : Params) : p.areaBytes =
    beBytes 6 p.stationAddress.toNat ++ beBytes 2 p.silenceLimit ++ beBytes 2 p.keepaliveInterval ++
      beBytes 2 p.holdLimit ++ beBytes 2 p.joinLimit ++
      (match p.expectedPartner with
        | some unit => [1] ++ beBytes 6 unit.toNat
        | none => [0, 0, 0, 0, 0, 0, 0]) ++ beBytes 1 p.bulkCap ++ beBytes 2 p.poolLow := by
  unfold Params.areaBytes
  cases p.expectedPartner with
  | none => simp only [List.append_assoc]; rfl
  | some unit => simp [bitOf, beBytes]

/-! ## Bodies that do not fit their code (R158, R182) -/

theorem bodyless_refused {r : Request} (h : r.body ≠ []) (s : State) (work : Answer × State) :
    bodyless r s work = (.plain .badRequest, s) := if_neg h

theorem withFlow_refused {r : Request} (h : ¬ ∃ flow : Byte, r.body = [flow] ∧ flow.toNat ≤ 63) (s : State)
    (work : FlowId → Answer × State) : withFlow r s work = (.plain .badRequest, s) := by
  have hf : requestFlow r = none := by
    unfold requestFlow
    split
    · next hl =>
      obtain ⟨flow, hb⟩ := List.length_eq_one_iff.1 hl
      rw [hb, byteAt_cons_zero]
      exact dif_neg fun hlt => h ⟨flow, hb, by omega⟩
    · rfl
  simp only [withFlow, hf]

/-- A two-byte field at the front. -/
theorem field_pair (hi lo : Byte) (rest : List Byte) : field (hi :: lo :: rest) 0 2 = hi.toNat * 256 + lo.toNat := by
  simp [field, slice, beValue]

theorem bindWork_refused {r : Request} (h : ¬ ∃ hi lo flags : Byte, r.body = [hi, lo, flags] ∧ flags.toNat ≤ 1 ∧
    1 ≤ hi.toNat * 256 + lo.toNat ∧ hi.toNat * 256 + lo.toNat ≤ 600) (s : State) :
    bindWork r s = (.plain .badRequest, s) := by
  refine if_neg fun hok => ?_
  obtain ⟨hl, hflags, h1, h600⟩ := hok
  obtain ⟨hi, lo, flags, hb⟩ := List.length_eq_three.1 hl
  simp only [hb, field_pair, byteAt_cons_zero, byteAt_cons_succ] at hflags h1 h600
  exact h ⟨hi, lo, flags, hb, by omega, h1, h600⟩

theorem bankOfCode_le {n : Nat} {bank : BankId} (h : bankOfCode n = some bank) : n ≤ 1 := by
  unfold bankOfCode at h
  split at h
  · omega
  · omega
  · cases h

theorem readTableWork_misfit {r : Request} (h : ¬ ∃ bank table first count : Byte,
    r.body = [bank, table, first, count] ∧ bank.toNat ≤ 1 ∧ table.toNat ≤ 2) (s : State) :
    readTableWork r s = (.plain .badRequest, s) := by
  refine readTableWork_refused (fun named t hbank ht hok => ?_) s
  obtain ⟨hl, hr⟩ := hok
  obtain ⟨bank, table, first, count, hb⟩ : ∃ bank table first count : Byte, r.body = [bank, table, first, count] := by
    match r.body, hl with
    | [bank, table, first, count], _ => exact ⟨bank, table, first, count, rfl⟩
  simp only [hb, byteAt_cons_zero, byteAt_cons_succ] at hbank ht hr
  exact h ⟨bank, table, first, count, hb, bankOfCode_le hbank, (range_of_rangeOk ht hr).1⟩

theorem commitWork_refused {r : Request} (h : r.body.length ≠ 4) (s : State) :
    commitWork r s = (.plain .badRequest, s) := if_neg h

theorem readCountersWork_misfit {r : Request} (h : ¬ ∃ scope flow flags : Byte, r.body = [scope, flow, flags] ∧
    scope.toNat ≤ 1 ∧ (scope = 1 → flow.toNat ≤ 63) ∧ flags.toNat ≤ 1) (s : State) :
    readCountersWork r s = (.plain .badRequest, s) := by
  by_cases hl : r.body.length = 3
  · obtain ⟨scope, flow, flags, hb⟩ := List.length_eq_three.1 hl
    refine readCountersWork_refused hb ?_ s
    by_contra hok
    simp only [not_or, not_and, not_lt] at hok
    obtain ⟨hscope, hflow, hflags⟩ := hok
    exact h ⟨scope, flow, flags, hb, hscope, hflow, hflags⟩
  · exact if_neg fun hok => hl hok.1

theorem byteAt_eq_getD (l : List Byte) (k : Nat) : byteAt l k = (l.getD k 0).toNat := by
  induction l generalizing k with
  | nil => simp [byteAt, field, slice, beValue]
  | cons b rest ih =>
    cases k with
    | zero => simp
    | succ k => simpa using ih k

/-- Log entry 18: the presence byte of the expected partner is 0 or 1. -/
theorem inRange_expectedPartner {p : Params} {presence : Nat} {area : List Byte}
    (h : p.inRange presence area = true) (hb : hasBit presence 5 = true) : byteAt area 14 ≤ 1 := by
  simp only [Params.inRange, Bool.and_eq_true] at h
  obtain ⟨⟨⟨⟨-, hpartner⟩, -⟩, -⟩, -⟩ := h
  simpa [presentIn, hb] using hpartner

theorem setParamsWork_misfit {r : Request} (h : ¬ (r.body.length = 25 ∧
    ((r.body.getD 0 0).getLsbD 5 = true → (r.body.getD 15 0).toNat ≤ 1))) (s : State) :
    setParamsWork r s = (.plain .badRequest, s) := by
  by_cases hl : r.body.length = 25
  · have hrange : ∀ p : Params, p.inRange (byteAt r.body 0) (r.body.drop 1) = false := by
      refine fun p => Bool.eq_false_iff.2 fun hp => h ⟨hl, fun hbit => ?_⟩
      have := inRange_expectedPartner hp (by rw [byteAt_eq_getD]; exact hbit)
      rw [byteAt_eq_getD] at this
      simpa using this
    exact (if_pos hl).trans (if_pos (by rw [hrange]; rfl))
  · exact if_neg hl

theorem setNoticesWork_misfit {r : Request} (h : ¬ ∃ mask : Byte, r.body = [mask] ∧ mask.toNat < 8) (s : State) :
    setNoticesWork r s = (.plain .badRequest, s) := by
  refine if_neg fun hok => ?_
  obtain ⟨hl, hmask⟩ := hok
  obtain ⟨mask, hb⟩ := List.length_eq_one_iff.1 hl
  rw [hb, byteAt_cons_zero] at hmask
  exact h ⟨mask, hb, hmask⟩

/-- R165: a RESTART that is refused is executed like any other request. -/
theorem exec_restart_refused {s : State} {r : Request} (h : s.Takes r codeRestart) (hb : r.body ≠ []) :
    exec .restart s = s.execute (· == codeRestart) restartWork := by
  have hd : (s.begin r).restartDiscarded r (restartWork r (s.begin r)) = false := by
    rw [restartWork, bodyless_refused hb]
    simp [State.restartDiscarded, isRestartResponse, Answer.plain]
  rw [exec_restart_of_takes h, State.executeRestart, hd, execute_of_head (headRequest_of_takes h) (by simp [h.coded])]
  rfl

theorem restart_answersOnly {s : State} {r : Request} (h : s.Takes r codeRestart) (hb : r.body ≠ []) :
    s.answersOnly .restart r .badRequest [] := by
  obtain ⟨t, e, hans, hkept, hnot, hrest⟩ :=
    request_unmarked h (exec_restart_refused h hb) rfl (bodyless_refused hb (s.begin r) _) rfl rfl h.unmarked
  refine ⟨t, e, hans, hkept.1, hkept.2, hnot, State.Unchanged.trans (l := [.engine]) ?_ hrest fun q hq => by simp_all⟩
  constructor <;> simp [begin_eq]

/-- R156: a code that Table 11.4 lacks. -/
theorem unknownRequest_answersOnly {s : State} {r : Request} (h : s.Takes r r.code) (hc : r.code ∉ requestCodes) :
    s.answersOnly .unknownRequest r .badRequest [] :=
  answersOnly_of h exec_unknownRequest (by simpa using hc) rfl

theorem commandOfCode_unknown {code : Byte} (h : code ∉ requestCodes) : commandOfCode code = .unknownRequest := by
  have hn : ∀ c ∈ requestCodes, code.toNat ≠ c.toNat := fun c hc e => h (BitVec.eq_of_toNat_eq e ▸ hc)
  simp [requestCodes, codeIdentify, codeBind, codeUnbind, codeReadTable, codeWriteTable, codeCopyBank, codeCommit,
    codeFlowOpen, codeFlowClose, codeFlowAbort, codeFlowReset, codeFlowStatus, codeLinkJoin, codeLinkLeave,
    codeLinkStatus, codeReadCounters, codeSetParams, codeReadParams, codeSetNotices, codeRestart] at hn
  simp [commandOfCode, hn]

/-- R158: each code of Table 11.4 with a body that does not fit it. -/
theorem misfit_answersOnly {s : State} {r : Request} (h : s.Takes r r.code) (hfit : ¬ bodyFits r.code r.body) :
    s.answersOnly (commandOfCode r.code) r .badRequest [] := by
  by_cases hc : r.code ∈ requestCodes
  · simp only [requestCodes, List.mem_cons, List.not_mem_nil, or_false] at hc
    rcases hc with hc | hc | hc | hc | hc | hc | hc | hc | hc | hc | hc | hc | hc | hc | hc | hc | hc | hc | hc | hc
    all_goals rw [hc] at h hfit ⊢
    · exact answersOnly_of h exec_identify rfl (bodyless_refused hfit _ _)
    · exact answersOnly_of h exec_bind rfl (bindWork_refused hfit _)
    · exact answersOnly_of h exec_unbind rfl (bodyless_refused hfit _ _)
    · exact answersOnly_of h exec_readTable rfl (readTableWork_misfit hfit _)
    · exact absurd trivial hfit
    · exact answersOnly_of h exec_copyBank rfl (bodyless_refused hfit _ _)
    · exact answersOnly_of h exec_commit rfl (commitWork_refused hfit _)
    · exact answersOnly_of h exec_flowOpen rfl (withFlow_refused hfit _ _)
    · exact answersOnly_of h exec_flowClose rfl (withFlow_refused hfit _ _)
    · exact answersOnly_of h exec_flowAbort rfl (withFlow_refused hfit _ _)
    · exact answersOnly_of h exec_flowReset rfl (withFlow_refused hfit _ _)
    · exact answersOnly_of h exec_flowStatus rfl (withFlow_refused hfit _ _)
    · exact answersOnly_of h exec_linkJoin rfl (bodyless_refused hfit _ _)
    · exact answersOnly_of h exec_linkLeave rfl (bodyless_refused hfit _ _)
    · exact answersOnly_of h exec_linkStatus rfl (bodyless_refused hfit _ _)
    · exact answersOnly_of h exec_readCounters rfl (readCountersWork_misfit hfit _)
    · exact answersOnly_of h exec_setParams rfl (setParamsWork_misfit hfit _)
    · exact answersOnly_of h exec_readParams rfl (bodyless_refused hfit _ _)
    · exact answersOnly_of h exec_setNotices rfl (setNoticesWork_misfit hfit _)
    · exact restart_answersOnly h hfit
  · rw [commandOfCode_unknown hc]
    exact unknownRequest_answersOnly h hc

end Sys2Proof.Machine

section
open Sys2Proof Sys2Proof.Machine

/-- Settles O48: the three answers as they stand, an unknown code, and each code with a body that does not fit. -/
theorem identityAndStatusAnswers : Obligations.IdentityAndStatusAnswers := by
  refine ⟨fun s r => ⟨fun h hb => ⟨fun hu => ?_, fun manager origin lease remaining hbound => ?_⟩, fun h hb => ?_,
    fun h hb => ?_, fun hb => ⟨fun h => ?_, fun h => ?_, fun h => ?_⟩⟩,
    fun s r h hc => unknownRequest_answersOnly h hc, fun s r h hfit => misfit_answersOnly h hfit⟩
  · refine ⟨Config.leaseWhileUnbound.toNat, answersOnly_of h exec_identify rfl ?_⟩
    rw [identifyWork_of_empty hb, show (s.begin r).engine.binding = .unbound from hu, List.append_assoc]
    rfl
  · refine ⟨leaseSeconds remaining, leaseSeconds_eq remaining, answersOnly_of h exec_identify rfl ?_⟩
    rw [identifyWork_of_empty hb, show (s.begin r).engine.binding = _ from hbound, List.append_assoc]
    rfl
  · refine ⟨s.part.statusBody, answersOnly_of h exec_linkStatus rfl (linkStatusWork_of_empty hb _), ?_⟩
    simp only [statusBody_flags, flagBits_testBit]
    simp [statusBody_eq, byteAt, List.append_assoc, field_skip, field_beBytes, linkStateCode_lt, field_word,
      field_word_end, getD_map_toNat, Partnership.marks]
  · refine answersOnly_of h exec_readParams rfl ?_
    rw [readParamsWork_of_empty hb, areaBytes_eq]
    simp only [List.append_assoc]
    rfl
  · exact answersOnly_of h exec_identify rfl (bodyless_refused hb _ _)
  · exact answersOnly_of h exec_linkStatus rfl (bodyless_refused hb _ _)
  · exact answersOnly_of h exec_readParams rfl (bodyless_refused hb _ _)

end

namespace Sys2Proof.Machine

variable {s u t : State}

/-! ## The lifecycle order (R135) -/

/-- R135 of every flow but one. -/
structure State.ListedBeside (s : State) (f : FlowId) : Prop where
  listed : ∀ k, f ≠ k → (k ∈ s.link.lifecycleOrder ↔ (s.flow k).pendingBlock.isSome)
  once : s.link.lifecycleOrder.Nodup

theorem State.LifecycleLaws.beside (h : s.LifecycleLaws) (f : FlowId) : s.ListedBeside f :=
  ⟨fun k _ => h.listed k, h.once⟩

theorem State.ListedBeside.modifyFlow {f : FlowId} (h : s.ListedBeside f) (g : Flow → Flow) :
    (s.modifyFlow f g).ListedBeside f :=
  ⟨fun k hk => by rw [flow_modifyFlow_ne _ _ hk]; exact h.listed k hk, h.once⟩

/-- A flow whose block becomes pending stands at the tail, once. -/
theorem State.ListedBeside.makePending {f : FlowId} (h : s.ListedBeside f) (b : LifecycleBlock) :
    (s.makePending f b).LifecycleLaws where
  listed k := by
    by_cases hk : f = k
    · subst hk
      simp [State.makePending]
    · simp [State.makePending, hk, Ne.symm hk, h.listed k hk]
  once := by
    simpa [State.makePending, List.nodup_append] using h.once.filter _

theorem State.ListedBeside.clearPending {f : FlowId} (h : s.ListedBeside f) : (s.clearPending f).LifecycleLaws where
  listed k := by
    by_cases hk : f = k
    · subst hk
      simp [State.clearPending]
    · simp [State.clearPending, hk, Ne.symm hk, h.listed k hk]
  once := h.once.filter _

theorem State.LifecycleLaws.congr (h : s.LifecycleLaws) (hl : t.link.lifecycleOrder = s.link.lifecycleOrder)
    (hf : ∀ f, (t.flow f).pendingBlock = (s.flow f).pendingBlock) : t.LifecycleLaws :=
  ⟨fun f => by rw [hl, hf]; exact h.listed f, hl ▸ h.once⟩

/-- R68, R167: no flow has a pending block, and the order is empty. -/
theorem lifecycleLaws_of_none (hl : s.link.lifecycleOrder = []) (hf : ∀ f, (s.flow f).pendingBlock = none) :
    s.LifecycleLaws := ⟨fun f => by simp [hl, hf], by simp [hl]⟩

/-! ## What shortens queues, or leaves them (Tables 8.1, 8.2, 9.1, 10.1, R135) -/

/-- From s to t no queue with a bound has grown but the notices, which are still within theirs, as is the bulk credit;
and the lifecycle order is still that of the pending blocks. -/
structure State.KeepsQueues (s t : State) : Prop where
  egress : t.wire.managementEgress.length ≤ s.wire.managementEgress.length
  replies : t.engine.linkReply.length ≤ s.engine.linkReply.length
  requests : t.engine.requests.length ≤ s.engine.requests.length
  record : t.engine.record.length ≤ s.engine.record.length
  notices : s.notices.queue.length ≤ 32 → t.notices.queue.length ≤ 32
  credit : s.link.bulkCredit ≤ 15 → t.link.bulkCredit ≤ 15
  lifecycle : s.LifecycleLaws → t.LifecycleLaws

/-- What the bounds and the lifecycle order read. -/
def State.queueView (s : State) : List ReplyItem × List ReplyItem × List Request × List RecordEntry × List Notice ×
    Nat × List FlowId × Vector Flow 64 :=
  (s.wire.managementEgress, s.engine.linkReply, s.engine.requests, s.engine.record, s.notices.queue,
    s.link.bulkCredit, s.link.lifecycleOrder, s.flows)

namespace State.KeepsQueues

theorem refl (s : State) : s.KeepsQueues s := ⟨le_rfl, le_rfl, le_rfl, le_rfl, id, id, id⟩

theorem trans (h : s.KeepsQueues u) (h' : u.KeepsQueues t) : s.KeepsQueues t where
  egress := h'.egress.trans h.egress
  replies := h'.replies.trans h.replies
  requests := h'.requests.trans h.requests
  record := h'.record.trans h.record
  notices := h'.notices ∘ h.notices
  credit := h'.credit ∘ h.credit
  lifecycle := h'.lifecycle ∘ h.lifecycle

/-- R151, R156, R174: a path that had room still has it. -/
theorem pathRoom (h : s.KeepsQueues t) {a b : Nat} {origin : Origin} (hr : s.pathRoom a b origin = true) :
    t.pathRoom a b origin = true := by
  have := h.egress
  have := h.replies
  cases origin <;> simp only [State.pathRoom, decide_eq_true_eq] at hr ⊢ <;> omega

/-! ### Updates of one block -/

/-- A change beside the queues and the flows. -/
theorem aside (h : s.KeepsQueues u) (hq : t.queueView = u.queueView) : s.KeepsQueues t := by
  simp only [State.queueView, Prod.mk.injEq] at hq
  obtain ⟨hegress, hreplies, hrequests, hrecord, hnotices, hcredit, horder, hflows⟩ := hq
  exact h.trans {
    egress := by rw [hegress]
    replies := by rw [hreplies]
    requests := by rw [hrequests]
    record := by rw [hrecord]
    notices := fun hn => hnotices ▸ hn
    credit := fun hc => hcredit ▸ hc
    lifecycle := fun hs => hs.congr horder fun f => by rw [State.flow, State.flow, hflows] }

theorem modifyPool (h : s.KeepsQueues u) (g : Pool → Pool) : s.KeepsQueues (u.modifyPool g) := h.aside rfl

theorem modifyPart (h : s.KeepsQueues u) (g : Partnership → Partnership) : s.KeepsQueues (u.modifyPart g) :=
  h.aside rfl

theorem countFlow (h : s.KeepsQueues u) (f : FlowId) (g : FlowCounters → FlowCounters) :
    s.KeepsQueues (u.countFlow f g) := h.aside rfl

theorem countDevice (h : s.KeepsQueues u) (g : DeviceCounters → DeviceCounters) :
    s.KeepsQueues (u.countDevice g) := h.aside rfl

theorem modifyFlow (h : s.KeepsQueues u) (f : FlowId) {g : Flow → Flow}
    (hg : ∀ fl, (g fl).pendingBlock = fl.pendingBlock) : s.KeepsQueues (u.modifyFlow f g) := by
  refine h.trans { refl u with lifecycle := fun hs => hs.congr rfl fun k => ?_ }
  rw [flow_modifyFlow]
  split
  · next hk => exact hk ▸ hg _
  · rfl

theorem modifyWire (h : s.KeepsQueues u) {g : WirePort → WirePort}
    (hg : (g u.wire).managementEgress.length ≤ u.wire.managementEgress.length) : s.KeepsQueues (u.modifyWire g) :=
  h.trans { refl u with egress := hg, lifecycle := fun hs => hs.congr rfl fun _ => rfl }

/-- R145: a transmitter that takes a frame leaves the management egress. -/
theorem modifyWire_take (h : s.KeepsQueues u) {g : WirePort → WirePort}
    (hg : (g u.wire).managementEgress = u.wire.managementEgress) : s.KeepsQueues (u.modifyWire fun w => (g w).take) :=
  h.modifyWire (g := fun w => (g w).take) (by rw [take_managementEgress, hg])

theorem modifyLink (h : s.KeepsQueues u) {g : LinkPort → LinkPort}
    (hl : (g u.link).lifecycleOrder = u.link.lifecycleOrder)
    (hc : u.link.bulkCredit ≤ 15 → (g u.link).bulkCredit ≤ 15) : s.KeepsQueues (u.modifyLink g) :=
  h.trans { refl u with credit := hc, lifecycle := fun hs => hs.congr hl fun _ => rfl }

theorem modifyEngine (h : s.KeepsQueues u) {g : Engine → Engine}
    (hr : (g u.engine).linkReply.length ≤ u.engine.linkReply.length)
    (hq : (g u.engine).requests.length ≤ u.engine.requests.length)
    (hd : (g u.engine).record.length ≤ u.engine.record.length) : s.KeepsQueues (u.modifyEngine g) :=
  h.trans { refl u with
    replies := hr, requests := hq, record := hd, lifecycle := fun hs => hs.congr rfl fun _ => rfl }

theorem modifyNotices (h : s.KeepsQueues u) {g : Notices → Notices}
    (hg : u.notices.queue.length ≤ 32 → (g u.notices).queue.length ≤ 32) : s.KeepsQueues (u.modifyNotices g) :=
  h.trans { refl u with notices := hg, lifecycle := fun hs => hs.congr rfl fun _ => rfl }

/-! ### The shared operations (sections 3, 5, 8 and 10) -/

theorem raiseCause (h : s.KeepsQueues u) (c : NoticeContent) : s.KeepsQueues (u.raiseCause c) :=
  h.modifyNotices fun hn => Notices.take_length hn c _

theorem complete (h : s.KeepsQueues u) (d : Option Deferred) (o : DeferredCode → Completion × Option Detail) :
    s.KeepsQueues (u.complete d o) := by
  cases d with
  | none => exact h
  | some d => exact h.raiseCause _

theorem lowPoolTest (h : s.KeepsQueues u) (before : Nat) : s.KeepsQueues (u.lowPoolTest before) := by
  unfold State.lowPoolTest
  simp only
  split_ifs
  · exact h
  · exact (h.modifyPool _).raiseCause _
  · exact h
  · exact h.modifyPool _
  · exact h

theorem grantFlow (h : s.KeepsQueues u) {f : FlowId} (e : u.grantFlow f = some t) : s.KeepsQueues t := by
  unfold State.grantFlow at e
  split at e
  · rw [← Option.some.inj e]
    exact (h.modifyPool _).lowPoolTest _
  · cases e

theorem grantBulk (h : s.KeepsQueues u) (e : u.grantBulk = some t) : s.KeepsQueues t := by
  unfold State.grantBulk at e
  split at e
  · rw [← Option.some.inj e]
    exact (h.modifyPool _).lowPoolTest _
  · cases e

theorem releaseFlow (h : s.KeepsQueues u) (f : FlowId) (n : Nat) : s.KeepsQueues (u.releaseFlow f n) :=
  (h.modifyPool _).lowPoolTest _

theorem releaseBulk (h : s.KeepsQueues u) : s.KeepsQueues u.releaseBulk := (h.modifyPool _).lowPoolTest _

theorem releaseAccount (h : s.KeepsQueues u) (a : Account) : s.KeepsQueues (u.releaseAccount a) := by
  cases a with
  | flow f => exact h.releaseFlow f 1
  | bulk => exact h.releaseBulk

theorem prepareOpening (h : s.KeepsQueues u) {f : FlowId} (e : u.prepareOpening f = some t) : s.KeepsQueues t := by
  obtain ⟨v, hv, rfl⟩ := Option.map_eq_some_iff.1 e
  unfold State.reserveFlow at hv
  split at hv
  · rw [← Option.some.inj hv]
    exact ((h.modifyPool _).lowPoolTest _).modifyFlow f fun _ => by rfl
  · cases hv

theorem makePending (h : s.KeepsQueues u) (f : FlowId) (b : LifecycleBlock) : s.KeepsQueues (u.makePending f b) :=
  h.trans { refl u with lifecycle := fun hs => (hs.beside f).makePending b }

/-- R51 step 4: a flow may change in any way before its pending block is cleared. -/
theorem modifyFlow_clearPending (h : s.KeepsQueues u) (f : FlowId) (g : Flow → Flow) :
    s.KeepsQueues ((u.modifyFlow f g).clearPending f) :=
  h.trans { refl u with lifecycle := fun hs => ((hs.beside f).modifyFlow g).clearPending }

theorem clearPending (h : s.KeepsQueues u) (f : FlowId) : s.KeepsQueues (u.clearPending f) :=
  h.trans { refl u with lifecycle := fun hs => (hs.beside f).clearPending }

theorem discardPending (h : s.KeepsQueues u) : s.KeepsQueues u.discardPending := by
  rw [discardPending_eq]
  have hnone : State.LifecycleLaws { u with
      flows := tabulate fun f => { u.flow f with pendingBlock := none }
      link := { u.link with lifecycleOrder := [] } } :=
    lifecycleLaws_of_none rfl fun f => by simp [State.flow]
  exact h.trans ⟨le_rfl, le_rfl, le_rfl, le_rfl, id, id, fun _ => hnone⟩

theorem changeFlowState (h : s.KeepsQueues u) (f : FlowId) (new : FlowState) (cause : FlowCause) :
    s.KeepsQueues (u.changeFlowState f new cause) := (h.modifyFlow f (fun _ => by rfl)).raiseCause _

theorem completeDeferred (h : s.KeepsQueues u) (f : FlowId) (o : Completion) :
    s.KeepsQueues (u.completeDeferred f o) := (h.modifyFlow f (fun _ => by rfl)).complete _ _

/-- R51. -/
theorem endFlow (h : s.KeepsQueues u) (f : FlowId) (new : FlowState) (cause : FlowCause)
    (failure : Option FailureCause) (keep : Bool) (o : DeferredCode → Completion × Option Detail) :
    s.KeepsQueues (u.endFlow f new cause failure keep o) := by
  have he : s.KeepsQueues (u.emptyAccount f (u.flow f).collectedBuffers) := (h.modifyPool _).lowPoolTest _
  unfold State.endFlow
  refine (KeepsQueues.complete ?_ _ _).raiseCause _
  cases keep with
  | true =>
    simp only [if_true]
    exact he.modifyFlow f fun _ => by rfl
  | false =>
    simp only [Bool.false_eq_true, if_false]
    exact he.modifyFlow_clearPending f _

theorem closeFlow (h : s.KeepsQueues u) (f : FlowId) (cause : FlowCause) (keep : Bool)
    (o : DeferredCode → Completion × Option Detail) : s.KeepsQueues (u.closeFlow f cause keep o) :=
  h.endFlow f _ _ _ _ _

theorem failFlow (h : s.KeepsQueues u) (f : FlowId) (failure : FailureCause) (keep : Bool)
    (o : DeferredCode → Completion × Option Detail) : s.KeepsQueues (u.failFlow f failure keep o) :=
  h.endFlow f _ _ _ _ _

/-- R58. -/
theorem completeDrain (h : s.KeepsQueues u) (f : FlowId) : s.KeepsQueues (u.completeDrain f) := by
  unfold State.completeDrain
  split
  · split
    · exact ((h.makePending f _).modifyFlow f (fun _ => by rfl)).changeFlowState f _ _
    · exact (h.makePending f _).closeFlow f _ _ _
    · exact h
  · exact h

theorem eachFlow (h : s.KeepsQueues u) {g : State → FlowId → State}
    (hg : ∀ {v}, s.KeepsQueues v → ∀ f, s.KeepsQueues (g v f)) : s.KeepsQueues (u.eachFlow g) :=
  eachFlow_keeps (P := fun v => s.KeepsQueues v) (fun _ f hv => hg hv f) h

/-- R37, R145: a frame at the tail of a class queue. -/
theorem placeClass (h : s.KeepsQueues u) (cls : PortClass) (item : WireItem) : s.KeepsQueues (u.placeClass cls item) :=
  h.modifyWire_take rfl

theorem deliver (h : s.KeepsQueues u) (f : FlowId) (frame : Frame) : s.KeepsQueues (u.deliver f frame) :=
  (h.placeClass _ _).countFlow f _

theorem deliverAll (h : s.KeepsQueues u) (f : FlowId) (frames : List Frame) :
    s.KeepsQueues (u.deliverAll f frames) := by
  unfold State.deliverAll
  induction frames generalizing u with
  | nil => exact h
  | cons frame rest ih => exact ih (h.deliver f frame)

/-- R140. -/
theorem present (h : s.KeepsQueues u) (b : LinkBlock) (owner : LinkOwner) : s.KeepsQueues (u.present b owner) := by
  rw [present_eq]
  exact h.aside rfl

theorem changeLinkState (h : s.KeepsQueues u) (new : LinkState) (cause : LinkCause) :
    s.KeepsQueues (u.changeLinkState new cause) := (h.modifyPart _).raiseCause _

theorem completeJoin (h : s.KeepsQueues u) (o : Completion) : s.KeepsQueues (u.completeJoin o) := by
  unfold State.completeJoin
  split
  · exact h
  · exact (h.modifyPart _).raiseCause _

/-- R167: every queue is empty, and no block is pending. -/
theorem applyRestart (h : s.KeepsQueues u) : s.KeepsQueues u.applyRestart :=
  h.trans {
    egress := Nat.zero_le _
    replies := Nat.zero_le _
    requests := Nat.zero_le _
    record := Nat.zero_le _
    notices := fun _ => Nat.zero_le _
    credit := fun _ => Nat.zero_le _
    lifecycle := fun _ => lifecycleLaws_of_none rfl fun f => by
      simp [State.applyRestart, State.flow, Flow.initial] }

theorem responseDeparted (h : s.KeepsQueues u) : s.KeepsQueues u.responseDeparted := by
  unfold State.responseDeparted
  split
  · exact (h.modifyPart _).aside (by rfl)
  · exact h.applyRestart

/-- R152. -/
theorem discardReplies (h : s.KeepsQueues u) : s.KeepsQueues u.discardReplies := by
  have htake : s.KeepsQueues (u.modifyEngine fun e =>
      { e with linkReply := e.linkReply.take u.link.transmitter.repliesTaken }) :=
    h.modifyEngine (List.length_take_le' _ _) le_rfl le_rfl
  unfold State.discardReplies
  simp only
  split
  · exact htake.responseDeparted
  · exact htake

end State.KeepsQueues

/-! ### The pending block through the rules of a flow (sections 1 and 2) -/

theorem takeStatus_pendingBlock (fl : Flow) (base : Nat) (a : Seq) (map : BitVec 64) (high : Option Seq) :
    (fl.takeStatus base a map high).pendingBlock = fl.pendingBlock := by
  have hstop : ∀ v : Flow, v.stopIfIdle.pendingBlock = v.pendingBlock := fun v => by
    unfold Flow.stopIfIdle
    split <;> rfl
  unfold Flow.takeStatus
  rw [hstop, Flow.marks_eq, Flow.resetAfterAdvance_eq]
  rfl

theorem retxExpired_pendingBlock (fl : Flow) (p : Profile) : (fl.retxExpired p).pendingBlock = fl.pendingBlock := by
  obtain ⟨win, e, -⟩ := fl.loseOldest_eq
  unfold Flow.retxExpired
  rw [e]
  rfl

theorem tick_pendingBlock (fl : Flow) : fl.tick.pendingBlock = fl.pendingBlock := by
  unfold Flow.tick
  split <;> rfl

namespace State.KeepsQueues

/-! ### The sender half (section 1) -/

theorem statusAtFlow (h : s.KeepsQueues u) (f : FlowId) (a : Seq) (map : BitVec 64) (high : Option Seq) :
    s.KeepsQueues (u.statusAtFlow f a map high) := by
  cases ht : (u.flow f).takesBlocks with
  | true =>
    rw [statusAtFlow_of_traffic ht]
    split
    · exact h.countFlow f _
    · exact ((h.modifyFlow f (takeStatus_pendingBlock · _ _ _ _)).releaseFlow f _).completeDrain f
  | false =>
    unfold State.statusAtFlow
    split
    · exact h
    · exact h
    · exact h.countDevice _
    all_goals next hs => simp [Flow.takesBlocks, hs] at ht

/-- R137, R138, R140: the bulk credit stops at 15. -/
theorem sendData (h : s.KeepsQueues u) (f : FlowId) (cls : PortClass) (epoch : Epoch) (body : BlockBody) :
    s.KeepsQueues (u.sendData f cls epoch body) := by
  refine (h.present _ _).modifyLink rfl fun hc => ?_
  simp only [LinkPort.dataTaken]
  split <;> omega

/-- R9. -/
theorem sendNew (h : s.KeepsQueues u) (f : FlowId) (cls : PortClass) (epoch : Epoch) (frame : Frame)
    (rest : List Frame) : s.KeepsQueues (u.sendNew f cls epoch frame rest) := by
  unfold State.sendNew
  exact ((h.modifyFlow f (fun _ => by rfl)).sendData f cls epoch _).countFlow f _

/-- R20 to R22. -/
theorem serveDue (h : s.KeepsQueues u) (f : FlowId) (cls : PortClass) (epoch : Epoch) (e : WindowEntry) :
    s.KeepsQueues (u.serveDue f cls epoch e) := by
  unfold State.serveDue
  split
  · unfold State.sendAgain
    exact ((h.modifyFlow f (fun _ => by rfl)).sendData f cls epoch _).countFlow f _
  · split
    · unfold State.sendSkip
      exact (((h.releaseFlow f 1).modifyFlow f (fun _ => by rfl)).sendData f cls epoch _).countFlow f _
    · exact (h.makePending f _).failFlow f _ _ _

theorem dataGrantAt (h : s.KeepsQueues u) (f : FlowId) (cls : PortClass) : s.KeepsQueues (u.dataGrantAt f cls) := by
  unfold State.dataGrantAt
  split
  · exact h
  · split
    · unfold State.serveData
      split
      · exact h.serveDue f cls _ _
      · split
        · exact h.sendNew f cls _ _ _
        · exact h
    · exact h

/-! ### The receiver half (section 2) -/

theorem advanceExpected (h : s.KeepsQueues u) (f : FlowId) : s.KeepsQueues (u.advanceExpected f) :=
  (h.modifyFlow f (fun _ => by rfl)).deliverAll f _

theorem acceptData (h : s.KeepsQueues u) (f : FlowId) : s.KeepsQueues (u.acceptData f) :=
  h.modifyFlow f fun _ => rfl

theorem setStatusPending (h : s.KeepsQueues u) (f : FlowId) : s.KeepsQueues (u.setStatusPending f) :=
  h.modifyFlow f fun _ => rfl

theorem insertMember (h : s.KeepsQueues u) (f : FlowId) (m : Member) : s.KeepsQueues (u.insertMember f m) :=
  h.modifyFlow f fun _ => by rfl

theorem dataInOrder (h : s.KeepsQueues u) (f : FlowId) (frame : Frame) : s.KeepsQueues (u.dataInOrder f frame) := by
  unfold State.dataInOrder
  split
  · exact h.countFlow f _
  · next v hv => exact (((h.grantFlow hv).deliver f frame).advanceExpected f).acceptData f

theorem dataEarly (h : s.KeepsQueues u) (f : FlowId) (q : Seq) (frame : Frame) :
    s.KeepsQueues (u.dataEarly f q frame) := by
  unfold State.dataEarly
  split
  · exact h.countFlow f _
  · next v hv =>
    refine (setStatusPending ?_ f).acceptData f
    split
    · exact (h.grantFlow hv).insertMember f _
    · exact ((h.grantFlow hv).deliver f frame).insertMember f _

theorem dataDuplicate (h : s.KeepsQueues u) (f : FlowId) : s.KeepsQueues (u.dataDuplicate f) :=
  (h.countFlow f _).setStatusPending f

theorem dataElsewhere (h : s.KeepsQueues u) (f : FlowId) : s.KeepsQueues (u.dataElsewhere f) := by
  unfold State.dataElsewhere
  split
  · exact h.makePending f _
  · exact h.countDevice _
  all_goals exact h

theorem dataAtFlow (h : s.KeepsQueues u) (f : FlowId) (q : Seq) (frame : Frame) :
    s.KeepsQueues (u.dataAtFlow f q frame) := by
  unfold State.dataAtFlow
  split
  · unfold State.sortData
    simp only
    split_ifs
    · exact h.dataInOrder f frame
    · exact h.dataDuplicate f
    · exact h.dataEarly f q frame
    · exact h.countFlow f _
    · exact h.dataDuplicate f
  · exact h.dataElsewhere f

theorem advanceAtFlow (h : s.KeepsQueues u) (f : FlowId) (q : Seq) : s.KeepsQueues (u.advanceAtFlow f q) := by
  unfold State.advanceAtFlow
  split
  · refine setStatusPending ?_ f
    split_ifs
    · exact h.advanceExpected f
    · exact h
    · exact h.insertMember f _
    · exact h.countFlow f _
    · exact h
  · exact h.dataElsewhere f

theorem statusGrantAt (h : s.KeepsQueues u) (f : FlowId) : s.KeepsQueues (u.statusGrantAt f) := by
  unfold State.statusGrantAt
  split
  · exact h
  · split
    · exact ((h.modifyFlow f (fun _ => by rfl)).present _ _).modifyLink (by rfl) id
    · exact h

/-! ### The lifecycle (section 3) -/

theorem openAtFlow (h : s.KeepsQueues u) (f : FlowId) (window : Nat) (order : OrderMode) :
    s.KeepsQueues (u.openAtFlow f window order) := by
  unfold State.openAtFlow
  split
  · unfold State.openAtClosed
    simp only
    split
    · exact h.makePending f _
    · split
      · exact h.makePending f _
      · split
        · exact h.makePending f _
        · next v hv => exact ((h.prepareOpening hv).makePending f _).changeFlowState f _ _
  · unfold State.openCrossed
    simp only
    split
    · exact (((h.modifyFlow f (fun _ => by rfl)).makePending f _).changeFlowState f _ _).completeDeferred f _
    · exact h.makePending f _
  · exact h.makePending f _
  · exact h.countDevice _
  · exact h.countDevice _
  · exact h.makePending f _

theorem clearOpen (h : s.KeepsQueues u) (f : FlowId) : s.KeepsQueues (u.clearOpen f) := by
  unfold State.clearOpen
  split
  · exact h.clearPending f
  · exact h

theorem openAckAtFlow (h : s.KeepsQueues u) (f : FlowId) (verdict : Verdict) :
    s.KeepsQueues (u.openAckAtFlow f verdict) := by
  unfold State.openAckAtFlow
  split
  · unfold State.acceptanceAtFlow
    split
    · exact (((h.modifyFlow f (fun _ => by rfl)).clearOpen f).changeFlowState f _ _).completeDeferred f _
    · exact h.makePending f _
    · exact h
    all_goals exact h.countDevice _
  · unfold State.refusalAtFlow
    split
    · exact h.closeFlow f _ _ _
    all_goals exact h.countDevice _

theorem closeAtFlow (h : s.KeepsQueues u) (f : FlowId) : s.KeepsQueues (u.closeAtFlow f) := by
  unfold State.closeAtFlow
  split
  · exact ((h.modifyFlow f (fun _ => by rfl)).changeFlowState f _ _).completeDrain f
  · split
    · exact ((h.modifyFlow f (fun _ => by rfl)).completeDeferred f _).completeDrain f
    · exact h
  · exact h.makePending f _
  · exact h.makePending f _
  all_goals exact h

theorem closeAckAtFlow (h : s.KeepsQueues u) (f : FlowId) : s.KeepsQueues (u.closeAckAtFlow f) := by
  unfold State.closeAckAtFlow
  split
  · exact h.closeFlow f _ _ _
  · exact h

theorem abortAtFlow (h : s.KeepsQueues u) (f : FlowId) : s.KeepsQueues (u.abortAtFlow f) := by
  unfold State.abortAtFlow
  split
  · exact h.failFlow f _ _ _
  · exact h

/-- R53, R55, R58, R59: a block taken from an OPENING or a CLOSING flow may leave another one owed. -/
theorem afterTaking (h : s.KeepsQueues u) (f : FlowId) (b : LifecycleBlock) : s.KeepsQueues (u.afterTaking f b) := by
  cases b with
  | openFlow | close =>
    unfold State.afterTaking
    exact h.modifyFlow f fun _ => by rfl
  | abort => exact h.completeDrain f
  | openAck =>
    simp only [State.afterTaking]
    split
    · exact h.makePending f _
    · exact h.completeDrain f
  | closeAck =>
    simp only [State.afterTaking]
    split
    · exact h.makePending f _
    · exact h.completeDrain f

theorem lifecycleGrantAt (h : s.KeepsQueues u) (f : FlowId) : s.KeepsQueues (u.lifecycleGrantAt f) := by
  unfold State.lifecycleGrantAt
  split
  · exact h
  · split
    · exact h
    · split
      · exact h
      · exact ((h.clearPending f).present _ _).afterTaking f _

theorem lossAtFlow (h : s.KeepsQueues u) (f : FlowId) : s.KeepsQueues (u.lossAtFlow f) := by
  have hsuspended : s.KeepsQueues (u.modifyFlow f fun fl => { fl with suspended := true }) :=
    h.modifyFlow f fun _ => rfl
  unfold State.lossAtFlow
  split
  · exact h.closeFlow f _ _ _
  · exact hsuspended
  · exact hsuspended
  · exact hsuspended
  all_goals exact h

theorem regainAtFlow (h : s.KeepsQueues u) (f : FlowId) : s.KeepsQueues (u.regainAtFlow f) := by
  unfold State.regainAtFlow
  split
  · simp only
    split
    · exact (h.modifyFlow f (fun _ => by rfl)).makePending f _
    · exact (h.modifyFlow f (fun _ => by rfl)).completeDrain f
  · exact h

theorem partnershipEndAtFlow (h : s.KeepsQueues u) (failure : FailureCause) (f : FlowId) :
    s.KeepsQueues (State.partnershipEndAtFlow failure u f) := by
  unfold State.partnershipEndAtFlow
  split
  · exact h.closeFlow f _ _ _
  · exact h.failFlow f _ _ _
  · exact h.failFlow f _ _ _
  · exact h.failFlow f _ _ _
  all_goals exact h

theorem leaveAtFlow (h : s.KeepsQueues u) (f : FlowId) : s.KeepsQueues (u.leaveAtFlow f) := by
  unfold State.leaveAtFlow
  split
  · exact h.failFlow f _ _ _
  · exact h

theorem localLeaveAtFlow (h : s.KeepsQueues u) (f : FlowId) : s.KeepsQueues (u.localLeaveAtFlow f) := by
  unfold State.localLeaveAtFlow
  split
  · exact h.closeFlow f _ _ _
  · exact h

theorem openTimerExpired (h : s.KeepsQueues u) (f : FlowId) : s.KeepsQueues (u.openTimerExpired f) := by
  unfold State.openTimerExpired
  split
  · exact (h.modifyFlow f (fun _ => by rfl)).makePending f _
  · exact h.closeFlow f _ _ _

theorem closeSeriesExpired (h : s.KeepsQueues u) (f : FlowId) : s.KeepsQueues (u.closeSeriesExpired f) := by
  unfold State.closeSeriesExpired
  simp only
  split
  · exact (h.modifyFlow f (fun _ => by rfl)).makePending f _
  · exact h.closeFlow f _ _ _

/-! ### The partnership (section 4) -/

theorem drawEpoch (h : s.KeepsQueues u) : s.KeepsQueues u.drawEpoch := h.aside rfl

theorem helloInJoining (h : s.KeepsQueues u) (epoch : Epoch) (unit : Address) (seen : Option Epoch) :
    s.KeepsQueues (u.helloInJoining epoch unit seen) := by
  unfold State.helloInJoining
  simp only
  split
  · exact (((h.modifyPart _).modifyPart _).changeLinkState _ _).completeJoin _
  · exact h.modifyPart _

theorem partnerRestart (h : s.KeepsQueues u) (epoch : Epoch) (unit : Address) (seen : Option Epoch) :
    s.KeepsQueues (u.partnerRestart epoch unit seen) :=
  ((((h.changeLinkState _ _).eachFlow fun hv f => hv.partnershipEndAtFlow _ f).discardPending).modifyPart
    _).helloInJoining _ _ _

theorem regain (h : s.KeepsQueues u) : s.KeepsQueues u.regain :=
  ((h.changeLinkState _ _).modifyPart _).eachFlow regainAtFlow

theorem helloAtPartnership (h : s.KeepsQueues u) (epoch : Epoch) (unit : Address) (seen : Option Epoch) :
    s.KeepsQueues (u.helloAtPartnership epoch unit seen) := by
  unfold State.helloAtPartnership
  split
  · exact h.countDevice _
  · split_ifs
    · exact h.countDevice _
    · exact h.countDevice _
    · exact h.helloInJoining _ _ _
  · split
    · exact h.countDevice _
    · unfold State.helloInPartnered
      split
      · exact (h.modifyPart _).modifyPart _
      · exact h.partnerRestart _ _ _
  · split
    · exact h.countDevice _
    · unfold State.helloInLost
      split_ifs
      · exact h.regain
      · exact h.modifyPart _
      · exact h.partnerRestart _ _ _

theorem leaveAtPartnership (h : s.KeepsQueues u) (epoch : Epoch) : s.KeepsQueues (u.leaveAtPartnership epoch) := by
  have hends := ((h.changeLinkState .silent .partnerLeft).eachFlow leaveAtFlow).discardPending
  unfold State.leaveAtPartnership
  split
  · simp only [State.partnerLeft]
    exact (hends.modifyPart _).discardReplies
  · exact h.countDevice _

theorem localLeave (h : s.KeepsQueues u) : s.KeepsQueues u.localLeave := by
  have hends := ((h.changeLinkState .silent .request).eachFlow localLeaveAtFlow).discardPending
  simp only [State.localLeave]
  exact ((hends.modifyPart _).completeJoin _).discardReplies

theorem partnershipGrantAt (h : s.KeepsQueues u) : s.KeepsQueues u.partnershipGrantAt := by
  unfold State.partnershipGrantAt
  split
  · exact (h.modifyPart _).present _ _
  · split_ifs
    · exact (h.modifyPart _).present _ _
    · exact (h.modifyPart _).present _ _
    · exact h
  · exact h

theorem joinExpired (h : s.KeepsQueues u) : s.KeepsQueues u.joinExpired :=
  (((h.changeLinkState _ _).modifyPart _).completeJoin _).discardReplies

theorem silenceExpired (h : s.KeepsQueues u) : s.KeepsQueues u.silenceExpired :=
  ((h.changeLinkState _ _).modifyPart _).eachFlow lossAtFlow

theorem holdExpired (h : s.KeepsQueues u) : s.KeepsQueues u.holdExpired := by
  have hends := ((h.changeLinkState .joining .holdExpired).eachFlow fun hv f =>
    hv.partnershipEndAtFlow .partnerLost f).discardPending
  simp only [State.holdExpired]
  exact hends.drawEpoch.modifyPart _

/-! ### The ports (sections 6 and 8) -/

theorem bulkPath (h : s.KeepsQueues u) (cls : PortClass) (frame : Frame) : s.KeepsQueues (u.bulkPath cls frame) := by
  unfold State.bulkPath
  split
  · split
    · next v hv => exact (h.grantBulk hv).aside (by rfl)
    · exact h.countDevice _
  · exact h.countDevice _

theorem plainAction (h : s.KeepsQueues u) (action : PlainAction) (frame : Frame) :
    s.KeepsQueues (u.plainAction action frame) := by
  cases action with
  | discard => exact h
  | bulk cls => exact h.bulkPath cls frame

theorem acceptFrame (h : s.KeepsQueues u) (f : FlowId) (frame : Frame) : s.KeepsQueues (u.acceptFrame f frame) := by
  unfold State.acceptFrame
  split
  · next v hv => exact ((h.grantFlow hv).modifyFlow f (fun _ => by rfl)).countFlow f _
  · exact h.countFlow f _

theorem classifyFrame (h : s.KeepsQueues u) (v : FrameView) (frame : Frame) :
    s.KeepsQueues (u.classifyFrame v frame) := by
  unfold State.classifyFrame
  split
  · next i _ =>
    have hhit : s.KeepsQueues (u.countHit i) := h.aside rfl
    unfold State.entryAction
    split
    · exact hhit
    · exact hhit.bulkPath _ _
    · unfold State.offerFrame
      split
      · exact hhit.acceptFrame _ _
      · exact (hhit.countFlow _ _).plainAction _ _
  · exact (h.countDevice _).plainAction _ _

/-- R146: a frame that has been sent leaves the management egress. -/
theorem wireEnd (h : s.KeepsQueues u) (owner : WireOwner) : s.KeepsQueues (u.wireEnd owner) := by
  cases owner with
  | abandoned => exact h
  | account a => exact h.releaseAccount a
  | management =>
    have hdrop : s.KeepsQueues (u.modifyWire fun w => { w with managementEgress := w.managementEgress.drop 1 }) :=
      h.modifyWire (by simp)
    simp only [State.wireEnd]
    split
    · exact hdrop.responseDeparted
    · exact hdrop

theorem wireNext (h : s.KeepsQueues u) : s.KeepsQueues u.wireNext :=
  h.modifyWire_take rfl

theorem wireDown (h : s.KeepsQueues u) : s.KeepsQueues u.wireDown := by
  unfold State.wireDown
  simp only
  split
  · exact ((h.aside (by rfl)).wireEnd _).wireNext
  · exact h.aside rfl

/-- R113, R138. -/
theorem bulkGrantAt (h : s.KeepsQueues u) : s.KeepsQueues u.bulkGrantAt := by
  have htaken : ∀ {v : State}, s.KeepsQueues v → s.KeepsQueues v.bulkTaken := fun hv =>
    hv.modifyLink rfl fun _ => Nat.zero_le _
  unfold State.bulkGrantAt
  split
  · exact h
  · split
    · exact htaken (h.present _ _)
    · split
      · exact htaken ((h.aside (by rfl)).present _ _)
      · exact h

/-- R140, R152. -/
theorem linkEnd (h : s.KeepsQueues u) (owner : LinkOwner) : s.KeepsQueues (u.linkEnd owner) := by
  cases owner with
  | plain => exact h
  | bulkBuffer => exact h.releaseBulk
  | restartLeave => exact h.applyRestart
  | linkReply =>
    have hdrop : s.KeepsQueues (u.modifyEngine fun e => { e with linkReply := e.linkReply.drop 1 }) :=
      h.modifyEngine (by simp) le_rfl le_rfl
    simp only [State.linkEnd]
    split
    · exact hdrop.responseDeparted
    · exact hdrop

theorem deliverBlock (h : s.KeepsQueues u) (received : List Byte) (bad : Bool) :
    s.KeepsQueues (u.deliverBlock received bad) := by
  have hroute : ∀ (l : LinkPort) (b : LinkBlock), (l.route b).lifecycleOrder = l.lifecycleOrder ∧
      (l.route b).bulkCredit = l.bulkCredit := fun l b => by
    unfold LinkPort.route
    split <;> exact ⟨rfl, rfl⟩
  unfold State.deliverBlock
  split
  · exact h.countDevice _
  · split
    · exact h.countDevice _
    · next b _ =>
      obtain ⟨hl, hc⟩ := hroute u.link b
      exact (h.countDevice _).modifyLink hl fun hb => hc ▸ hb

theorem slotWithdrawn (h : s.KeepsQueues u) : s.KeepsQueues (u.modifyLink (·.slotWithdrawn)) := by
  have hkept : u.link.slotWithdrawn.lifecycleOrder = u.link.lifecycleOrder ∧
      u.link.slotWithdrawn.bulkCredit = u.link.bulkCredit := by
    unfold LinkPort.slotWithdrawn
    split <;> exact ⟨rfl, rfl⟩
  obtain ⟨hl, hc⟩ := hkept
  exact h.modifyLink hl fun hb => hc ▸ hb

end State.KeepsQueues

end Sys2Proof.Machine

namespace Sys2Proof.Machine

variable {s u t : State}

/-! ## What keeps the bounds and the lifecycle order (R135, R138, R151, R152, R156, R157, R172) -/

/-- From s to t the bounds of the queues are kept, and the lifecycle order is. -/
structure State.KeepsOrder (s t : State) : Prop where
  bounds : s.QueueBounds → t.QueueBounds
  lifecycle : s.LifecycleLaws → t.LifecycleLaws

theorem State.KeepsOrder.trans (h : s.KeepsOrder u) (h' : u.KeepsOrder t) : s.KeepsOrder t :=
  ⟨h'.bounds ∘ h.bounds, h'.lifecycle ∘ h.lifecycle⟩

theorem State.KeepsQueues.order (h : s.KeepsQueues t) : s.KeepsOrder t where
  bounds hs :=
    { egress := h.egress.trans hs.egress
      replies := h.replies.trans hs.replies
      requests := h.requests.trans hs.requests
      record := h.record.trans hs.record
      notices := h.notices hs.notices
      credit := h.credit hs.credit }
  lifecycle := h.lifecycle

theorem State.KeepsOrder.refl (s : State) : s.KeepsOrder s := (State.KeepsQueues.refl s).order

/-! ### Frames placed in a reply path, and the end of a happening (R152, R174, R133) -/

/-- R151, R156, R174: a path that has room takes one frame more. -/
theorem keepsOrder_placeReply {origin : Origin} {wireLimit linkLimit : Nat}
    (hr : s.pathRoom wireLimit linkLimit origin = true) (hw : wireLimit ≤ 8) (hl : linkLimit ≤ 4)
    (item : ReplyItem) :
    s.KeepsOrder (s.placeReply origin item) := by
  obtain ⟨w, replies, e, -, hegress, hreplies⟩ := placeReply_eq s origin item
  rw [e]
  refine ⟨fun h => { h with egress := ?_, replies := ?_ }, fun h => h.congr rfl fun _ => rfl⟩
  · cases origin with
    | wire =>
      have hroom : s.wire.managementEgress.length < wireLimit := by simpa [State.pathRoom] using hr
      simp only [hegress, if_true, List.length_append, List.length_singleton]
      omega
    | link => simpa [hegress] using h.egress
  · cases origin with
    | wire => simpa [hreplies] using h.replies
    | link =>
      have hroom : s.engine.linkReply.length < linkLimit := by simpa [State.pathRoom] using hr
      simp only [hreplies, List.length_append]
      split <;> simp <;> omega

theorem keepsOrder_releaseNotice (e : s.releaseNotice = some t) : s.KeepsOrder t := by
  unfold State.releaseNotice at e
  split at e
  · cases e
  · split at e
    · next hr =>
      split at e
      · cases e
      · rw [← Option.some.inj e]
        have herase : s.KeepsQueues (s.modifyNotices fun ns =>
            { ns with queue := ns.queue.eraseP (·.held.isNone), overrun := false }) :=
          (State.KeepsQueues.refl s).modifyNotices fun hn => List.length_eraseP_le.trans hn
        exact herase.order.trans (keepsOrder_placeReply (s := s.modifyNotices _) hr (by decide) (by decide) _)
    · cases e

theorem keepsOrder_finish (s : State) : s.KeepsOrder s.finish := by
  have hreleased : s.KeepsOrder s.releaseNotices :=
    releaseNotices_keeps (fun _ _ e h => h.trans (keepsOrder_releaseNotice e)) (.refl s)
  obtain ⟨g, e⟩ := select_eq s.releaseNotices
  rw [State.finish, e]
  exact hreleased.trans ((State.KeepsQueues.refl _).aside (by rfl)).order

/-! ### Intake (R149 to R151) -/

theorem keepsOrder_answerAtIntake (s : State) (origin : Origin) (frame : Frame) :
    s.KeepsOrder (s.answerAtIntake origin frame) := by
  unfold State.answerAtIntake
  split
  · next hr => exact keepsOrder_placeReply hr le_rfl le_rfl _
  · exact ((State.KeepsQueues.refl s).countDevice _).order

/-- R151. -/
theorem keepsOrder_enqueue (s : State) (r : Request) : s.KeepsOrder (s.enqueue r) := by
  unfold State.enqueue
  split
  · exact ⟨fun h => { h with requests := by simp; omega }, fun h => h.congr rfl fun _ => rfl⟩
  · exact keepsOrder_answerAtIntake s _ _

theorem keepsOrder_admitRequest (s : State) (r : Request) : s.KeepsOrder (s.admitRequest r) := by
  unfold State.admitRequest
  split
  · exact keepsOrder_answerAtIntake s _ _
  · split
    · exact keepsOrder_answerAtIntake s _ _
    · split
      · exact ((State.KeepsQueues.refl s).countDevice _).order
      · exact keepsOrder_enqueue s r

theorem keepsOrder_intake (s : State) (origin : Origin) (v : FrameView) : s.KeepsOrder (s.intake origin v) := by
  have hignored : s.KeepsOrder s.countIgnored := ((State.KeepsQueues.refl s).countDevice _).order
  unfold State.intake
  split
  · exact hignored
  · split
    · exact hignored
    · exact keepsOrder_admitRequest s _

theorem keepsOrder_receiveFrame (s : State) (received : List Byte) (bad : Bool) :
    s.KeepsOrder (s.receiveFrame received bad) := by
  unfold State.receiveFrame
  simp only
  split_ifs
  · exact keepsOrder_intake s _ _
  · exact ((State.KeepsQueues.refl s).classifyFrame _ _).order
  · exact ((State.KeepsQueues.refl s).countDevice _).order

/-- R114, R115. -/
theorem keepsOrder_bulkAtPath (s : State) (cls : PortClass) (frame : Frame) :
    s.KeepsOrder (s.bulkAtPath cls frame) := by
  unfold State.bulkAtPath
  simp only
  split
  · exact keepsOrder_intake s _ _
  · split
    · next v hv => exact (((State.KeepsQueues.refl s).grantBulk hv).placeClass _ _).order
    · exact ((State.KeepsQueues.refl s).countDevice _).order

/-! ### The execution of requests (R156, R157, R173) -/

/-- R156: the response enters a path that has room for it. -/
theorem keepsOrder_respond {r : Request} (hr : s.pathRoom 8 4 r.origin = true) (response : ReplyItem) :
    s.KeepsOrder (s.respond r response) := by
  have hmarks : ∀ v : State, v.KeepsQueues (v.modifyNotices (·.clearMarks ⟨r.source, r.tag⟩)) := fun v =>
    (State.KeepsQueues.refl v).modifyNotices fun hn => by simpa [Notices.clearMarks] using hn
  exact (keepsOrder_placeReply hr le_rfl le_rfl response).trans ((hmarks _).aside (by rfl)).order

/-- R157. -/
theorem keepsOrder_answerRequest {r : Request} (hr : s.pathRoom 8 4 r.origin = true) (a : Answer) :
    s.KeepsOrder (s.answerRequest r a) := by
  have hstore : ∀ response, s.KeepsOrder (s.modifyEngine (·.store r response)) := fun response => by
    refine ⟨fun h => { h with record := ?_ }, fun h => h.congr rfl fun _ => rfl⟩
    have := h.record
    simp only [modifyEngine_engine, Engine.store, List.length_append, List.length_singleton]
    split
    · omega
    · rw [List.length_drop]
      omega
  have hroom : ∀ response, (s.modifyEngine (·.store r response)).pathRoom 8 4 r.origin = true := fun _ => by
    cases ho : r.origin <;> simpa [State.pathRoom, Engine.store, ho] using hr
  exact (hstore _).trans (keepsOrder_respond (hroom _) _)

theorem keepsOrder_executeRequest {r : Request} {work : Request → State → Answer × State}
    (hr : s.pathRoom 8 4 r.origin = true) (hw : s.KeepsQueues (work r s).2) :
    s.KeepsOrder (s.executeRequest r work) := by
  unfold State.executeRequest
  split
  · exact keepsOrder_respond hr _
  · exact hw.order.trans (keepsOrder_answerRequest (hw.pathRoom hr) _)

theorem keepsQueues_begin (s : State) (r : Request) : s.KeepsQueues (s.begin r) :=
  (State.KeepsQueues.refl s).modifyEngine le_rfl (by simp) le_rfl

theorem pathRoom_begin {r : Request} (h : s.headRequest = some r) : (s.begin r).pathRoom 8 4 r.origin = true := by
  obtain ⟨-, -, hr⟩ := headRequest_some h
  exact hr

/-! ### What each request does (sections 7, 9 and 10) -/

theorem keepsQueues_bodyless {work : Answer × State} (r : Request) (hw : s.KeepsQueues work.2) :
    s.KeepsQueues (bodyless r s work).2 := by
  unfold bodyless
  split
  · exact hw
  · exact .refl s

theorem keepsQueues_withFlow {work : FlowId → Answer × State} (r : Request) (hw : ∀ f, s.KeepsQueues (work f).2) :
    s.KeepsQueues (withFlow r s work).2 := by
  unfold withFlow
  split
  · exact .refl s
  · exact hw _

theorem keepsQueues_bindWork (r : Request) (s : State) : s.KeepsQueues (bindWork r s).2 := by
  have hbind : ∀ lease, s.KeepsQueues (s.bindTo r lease) := fun _ => (State.KeepsQueues.refl s).aside rfl
  unfold bindWork bindWith
  simp only
  split
  · split
    · exact hbind _
    · split
      · exact hbind _
      · exact .refl s
  · exact .refl s

theorem keepsQueues_readTableWork (r : Request) (s : State) : s.KeepsQueues (readTableWork r s).2 := by
  unfold readTableWork
  simp only
  split
  · split <;> exact .refl s
  · exact .refl s

theorem keepsQueues_writeTableWork (r : Request) (s : State) : s.KeepsQueues (writeTableWork r s).2 := by
  unfold writeTableWork
  simp only
  split
  · split
    · unfold writeShadow
      split
      · exact .refl s
      · exact (State.KeepsQueues.refl s).aside rfl
    · exact .refl s
  · exact .refl s

theorem keepsQueues_commitWork (r : Request) (s : State) : s.KeepsQueues (commitWork r s).2 := by
  unfold commitWork commitBank
  split
  · split
    · exact .refl s
    · split
      · exact .refl s
      · split
        · exact .refl s
        · exact (State.KeepsQueues.refl s).aside rfl
  · exact .refl s

/-- R52. -/
theorem keepsQueues_flowOpenAt (s : State) (f : FlowId) (tag : Tag) : s.KeepsQueues (flowOpenAt s f tag).2 := by
  unfold flowOpenAt
  split_ifs
  · exact .refl s
  · exact .refl s
  · exact .refl s
  · exact .refl s
  · split
    · exact .refl s
    · next v hv =>
      have hpending := ((State.KeepsQueues.refl s).prepareOpening hv).makePending f
      exact ((hpending _).modifyFlow f (fun _ => by rfl)).changeFlowState f _ _

/-- R57. -/
theorem keepsQueues_flowCloseAt (s : State) (f : FlowId) (tag : Tag) : s.KeepsQueues (flowCloseAt s f tag).2 := by
  unfold flowCloseAt
  split
  · exact (((State.KeepsQueues.refl s).modifyFlow f (fun _ => by rfl)).changeFlowState f _ _).completeDrain f
  all_goals exact .refl s

/-- R62. -/
theorem keepsQueues_flowAbortAt (s : State) (f : FlowId) : s.KeepsQueues (flowAbortAt s f).2 := by
  unfold flowAbortAt State.abortFlow
  simp only
  split_ifs
  · exact ((State.KeepsQueues.refl s).makePending f _).closeFlow f _ _ _
  · exact (State.KeepsQueues.refl s).closeFlow f _ _ _
  · exact .refl s

/-- R64. -/
theorem keepsQueues_flowResetAt (s : State) (f : FlowId) : s.KeepsQueues (flowResetAt s f).2 := by
  unfold flowResetAt
  split
  · exact (State.KeepsQueues.refl s).closeFlow f _ _ _
  · exact .refl s

/-- R73. -/
theorem keepsQueues_joinAt (s : State) (tag : Tag) : s.KeepsQueues (joinAt s tag).2 := by
  unfold joinAt
  split
  · exact ((State.KeepsQueues.refl s).drawEpoch.modifyPart _).changeLinkState _ _
  all_goals exact .refl s

theorem keepsQueues_linkLeaveWork (r : Request) (s : State) : s.KeepsQueues (linkLeaveWork r s).2 := by
  refine keepsQueues_bodyless r ?_
  simp only
  split
  · exact .refl s
  · exact (State.KeepsQueues.refl s).localLeave

theorem keepsQueues_readCountersWork (r : Request) (s : State) : s.KeepsQueues (readCountersWork r s).2 := by
  unfold readCountersWork
  simp only
  split
  · split
    · unfold readDeviceCounters
      simp only
      split
      · exact (State.KeepsQueues.refl s).aside rfl
      · exact .refl s
    · split
      · unfold readFlowCounters
        simp only
        split
        · exact (State.KeepsQueues.refl s).countFlow _ _
        · exact .refl s
      · exact .refl s
    · exact .refl s
  · exact .refl s

theorem keepsQueues_setParamsWork (r : Request) (s : State) : s.KeepsQueues (setParamsWork r s).2 := by
  unfold setParamsWork
  split
  · rcases setParamsWith_params s (byteAt r.body 0) (r.body.drop 1) with e | ⟨-, e⟩ <;> rw [e]
    · exact .refl s
    · exact (State.KeepsQueues.refl s).aside rfl
  · exact .refl s

theorem keepsQueues_setNoticesWork (r : Request) (s : State) : s.KeepsQueues (setNoticesWork r s).2 := by
  unfold setNoticesWork
  simp only
  split
  · exact (State.KeepsQueues.refl s).aside rfl
  · exact .refl s

/-- R165, R166. -/
theorem keepsOrder_executeRestart {r : Request} (hr : s.pathRoom 8 4 r.origin = true) :
    s.KeepsOrder (s.executeRestart r) := by
  have hwait : s.KeepsQueues (s.modifyEngine fun e => { e with state := .awaitResponse }) :=
    (State.KeepsQueues.refl s).aside rfl
  have hdone : s.KeepsOrder (s.executeRequest r restartWork) :=
    keepsOrder_executeRequest hr (keepsQueues_bodyless r hwait)
  unfold State.executeRestart
  simp only
  split
  · exact hdone.trans (State.KeepsQueues.refl _).responseDeparted.order
  · exact hdone

/-! ## Every command keeps the bounds and the lifecycle order -/

/-- The state after an outcome keeps the bounds and the order. -/
def OrderKept (s : State) (o : Host.Outcome State Fault Refusal) : Prop := ∀ t, o = .next t → s.KeepsOrder t

theorem orderKept_same (s : State) : OrderKept s (.next s) := fun _ e => by
  cases e
  exact .refl s

theorem orderKept_finish (h : s.KeepsOrder u) : OrderKept s (.next u.finish) := fun _ e => by
  cases e
  exact h.trans (keepsOrder_finish u)

theorem orderKept_shortened (h : s.KeepsQueues u) : OrderKept s (.next u.finish) := orderKept_finish h.order

/-- A happening that has an effect under a condition only. -/
theorem orderKept_ite {p : Prop} [Decidable p] (h : s.KeepsQueues u) :
    OrderKept s (if p then .next u.finish else .next s) := by
  split
  · exact orderKept_shortened h
  · exact orderKept_same s

/-- R88: a block that reaches its destination, or is stale. -/
theorem keepsOrder_ifAccepted {epoch : Epoch} {d : State → State} (hd : ∀ v : State, v.KeepsOrder (d v)) :
    s.KeepsOrder (s.ifAccepted epoch d) := by
  unfold State.ifAccepted
  split
  · exact ((State.KeepsQueues.refl s).modifyPart _).order.trans (hd _)
  · exact ((State.KeepsQueues.refl s).countDevice _).order

theorem orderKept_flowBlock {epoch : Epoch} {d : State → State} (hd : ∀ v : State, v.KeepsQueues (d v)) :
    OrderKept s (.next (s.dropFlowBlock.ifAccepted epoch d).finish) :=
  have hdrop : s.KeepsQueues s.dropFlowBlock := (State.KeepsQueues.refl s).aside rfl
  orderKept_finish (hdrop.order.trans (keepsOrder_ifAccepted fun v => (hd v).order))

/-- R156. -/
theorem orderKept_request {c : Instr} {named : Byte → Bool} {work : Request → State → Answer × State}
    (hexec : exec c s = s.execute named work) (hw : ∀ r (v : State), v.KeepsQueues (work r v).2) :
    OrderKept s (exec c s) := by
  rw [hexec]
  unfold State.execute
  split
  · exact orderKept_same s
  · next r hr =>
    split
    · exact orderKept_finish ((keepsQueues_begin s r).order.trans
        (keepsOrder_executeRequest (pathRoom_begin hr) (hw r _)))
    · exact orderKept_same s

theorem orderKept_restart (s : State) : OrderKept s (Machine.execRestart s) := by
  unfold Machine.execRestart
  split
  · exact orderKept_same s
  · next r hr =>
    split
    · exact orderKept_finish ((keepsQueues_begin s r).order.trans (keepsOrder_executeRestart (pathRoom_begin hr)))
    · exact orderKept_same s

/-- R48: every queue is empty, and no block is pending. -/
theorem powerOn_keepsOrder (s : State) : s.KeepsOrder (State.powerOn s.unitId s.epochDraws s.pending) where
  bounds _ := ⟨Nat.zero_le _, Nat.zero_le _, Nat.zero_le _, Nat.zero_le _, Nat.zero_le _, Nat.zero_le _⟩
  lifecycle _ := lifecycleLaws_of_none rfl fun f => by simp [State.powerOn, State.flow, Flow.initial]

theorem keepsOrder_tick (s : State) : s.KeepsOrder s.tick where
  bounds h := ⟨h.egress, h.replies, h.requests, h.record, h.notices, h.credit⟩
  lifecycle h := h.congr rfl fun f => by
    simpa [State.tick, State.flow] using tick_pendingBlock _

theorem exec_orderKept (c : Instr) (s : State) : OrderKept s (exec c s) := by
  have hs := State.KeepsQueues.refl s
  have hgrant : s.KeepsQueues (s.modifyLink fun l => { l with grant := none }) := hs.aside rfl
  cases c with
  | powerOnReset => exact fun _ e => by cases e; exact powerOn_keepsOrder s
  | wireFrameReception received bad => exact orderKept_finish (keepsOrder_receiveFrame s received bad)
  | linkBlockDelivery received bad => exact orderKept_shortened (hs.deliverBlock received bad)
  | slotSignalled => exact orderKept_shortened (hs.aside (by rfl))
  | slotWithdrawn => exact orderKept_shortened hs.slotWithdrawn
  | wiredLinkUp => exact orderKept_shortened (hs.modifyWire_take (g := fun w => { w with linkUp := true }) rfl)
  | wiredLinkDown => exact orderKept_shortened hs.wireDown
  | helloReceived =>
    simp only [exec, execHelloReceived]
    split
    · exact orderKept_shortened ((hs.aside (by rfl)).helloAtPartnership _ _ _)
    · exact orderKept_same s
  | keepaliveReceived =>
    simp only [exec, execKeepaliveReceived]
    split
    · exact orderKept_finish ((hs.aside (by rfl)).order.trans (keepsOrder_ifAccepted fun v => .refl v))
    · exact orderKept_same s
  | leaveReceived =>
    simp only [exec, execLeaveReceived]
    split
    · exact orderKept_shortened ((hs.aside (by rfl)).leaveAtPartnership _)
    · exact orderKept_same s
  | openReceived =>
    simp only [exec, execOpenReceived]
    split
    · exact orderKept_flowBlock fun v => (State.KeepsQueues.refl v).openAtFlow _ _ _
    · exact orderKept_same s
  | openAckReceived =>
    simp only [exec, execOpenAckReceived]
    split
    · exact orderKept_flowBlock fun v => (State.KeepsQueues.refl v).openAckAtFlow _ _
    · exact orderKept_same s
  | closeReceived =>
    simp only [exec, execCloseReceived]
    split
    · exact orderKept_flowBlock fun v => (State.KeepsQueues.refl v).closeAtFlow _
    · exact orderKept_same s
  | closeAckReceived =>
    simp only [exec, execCloseAckReceived]
    split
    · exact orderKept_flowBlock fun v => (State.KeepsQueues.refl v).closeAckAtFlow _
    · exact orderKept_same s
  | abortReceived =>
    simp only [exec, execAbortReceived]
    split
    · exact orderKept_flowBlock fun v => (State.KeepsQueues.refl v).abortAtFlow _
    · exact orderKept_same s
  | dataReceived =>
    simp only [exec, execDataReceived]
    split
    · exact orderKept_flowBlock fun v => (State.KeepsQueues.refl v).dataAtFlow _ _ _
    · exact orderKept_same s
  | advanceReceived =>
    simp only [exec, execAdvanceReceived]
    split
    · exact orderKept_flowBlock fun v => (State.KeepsQueues.refl v).advanceAtFlow _ _
    · exact orderKept_same s
  | statusReceived =>
    simp only [exec, execStatusReceived]
    split
    · exact orderKept_flowBlock fun v => (State.KeepsQueues.refl v).statusAtFlow _ _ _ _
    · exact orderKept_same s
  | bulkReceived =>
    simp only [exec, execBulkReceived]
    split
    · exact orderKept_finish
        ((hs.aside (by rfl)).order.trans (keepsOrder_ifAccepted fun v => keepsOrder_bulkAtPath v _ _))
    · exact orderKept_same s
  | dataGrant =>
    simp only [exec, execDataGrant]
    split
    · exact orderKept_shortened (hgrant.dataGrantAt _ _)
    · exact orderKept_same s
  | statusGrant =>
    simp only [exec, execStatusGrant]
    split
    · exact orderKept_shortened (hgrant.statusGrantAt _)
    · exact orderKept_same s
  | lifecycleGrant =>
    simp only [exec, execLifecycleGrant]
    split
    · exact orderKept_shortened (hgrant.lifecycleGrantAt _)
    · exact orderKept_same s
  | partnershipGrant =>
    simp only [exec, execPartnershipGrant]
    split
    · exact orderKept_shortened hgrant.partnershipGrantAt
    · exact orderKept_same s
  | bulkGrant =>
    simp only [exec, execBulkGrant]
    split
    · exact orderKept_shortened hgrant.bulkGrantAt
    · exact orderKept_same s
  | linkTransmissionEnd =>
    simp only [exec, execLinkTransmissionEnd]
    split
    · exact orderKept_shortened ((hs.aside (by rfl)).linkEnd _)
    all_goals exact orderKept_same s
  | wireTransmissionEnd =>
    simp only [exec, execWireTransmissionEnd]
    split
    · exact orderKept_shortened (hs.wireEnd _).wireNext
    · exact orderKept_same s
  | retransmissionTimerExpiry f => exact orderKept_ite (hs.modifyFlow f (retxExpired_pendingBlock · _))
  | closeSeriesExpiry f => exact orderKept_ite (hs.closeSeriesExpired f)
  | openTimerExpiry f => exact orderKept_ite (hs.openTimerExpired f)
  | ackDelayTimerExpiry f => exact orderKept_ite (hs.modifyFlow f fun _ => by rfl)
  | joinTimerExpiry => exact orderKept_ite hs.joinExpired
  | helloTimerExpiry => exact orderKept_ite (hs.modifyPart _)
  | silenceTimerExpiry => exact orderKept_ite hs.silenceExpired
  | keepaliveTimerExpiry => exact orderKept_ite (hs.modifyPart _)
  | holdTimerExpiry => exact orderKept_ite hs.holdExpired
  | leaseTimerExpiry => exact orderKept_ite (hs.aside (by rfl))
  | restart => exact orderKept_restart s
  | identify => exact orderKept_request (exec_identify s) fun r v => keepsQueues_bodyless r (.refl v)
  | linkStatus => exact orderKept_request (exec_linkStatus s) fun r v => keepsQueues_bodyless r (.refl v)
  | readParams => exact orderKept_request (exec_readParams s) fun r v => keepsQueues_bodyless r (.refl v)
  | bind => exact orderKept_request (exec_bind s) keepsQueues_bindWork
  | unbind =>
    exact orderKept_request (exec_unbind s) fun r v =>
      keepsQueues_bodyless r ((State.KeepsQueues.refl v).aside (by rfl))
  | readTable => exact orderKept_request (exec_readTable s) keepsQueues_readTableWork
  | writeTable => exact orderKept_request (exec_writeTable s) keepsQueues_writeTableWork
  | copyBank =>
    exact orderKept_request (exec_copyBank s) fun r v =>
      keepsQueues_bodyless r ((State.KeepsQueues.refl v).aside (by rfl))
  | commit => exact orderKept_request (exec_commit s) keepsQueues_commitWork
  | flowOpen =>
    exact orderKept_request (exec_flowOpen s) fun r v =>
      keepsQueues_withFlow r fun f => keepsQueues_flowOpenAt v f _
  | flowClose =>
    exact orderKept_request (exec_flowClose s) fun r v =>
      keepsQueues_withFlow r fun f => keepsQueues_flowCloseAt v f _
  | flowAbort =>
    exact orderKept_request (exec_flowAbort s) fun r v =>
      keepsQueues_withFlow r (keepsQueues_flowAbortAt v)
  | flowReset =>
    exact orderKept_request (exec_flowReset s) fun r v =>
      keepsQueues_withFlow r (keepsQueues_flowResetAt v)
  | flowStatus =>
    exact orderKept_request (exec_flowStatus s) fun r v =>
      keepsQueues_withFlow r fun _ => .refl v
  | linkJoin => exact orderKept_request (exec_linkJoin s) fun r v => keepsQueues_bodyless r (keepsQueues_joinAt v _)
  | linkLeave => exact orderKept_request (exec_linkLeave s) keepsQueues_linkLeaveWork
  | readCounters => exact orderKept_request (exec_readCounters s) keepsQueues_readCountersWork
  | setParams => exact orderKept_request (exec_setParams s) keepsQueues_setParamsWork
  | setNotices => exact orderKept_request (exec_setNotices s) keepsQueues_setNoticesWork
  | unknownRequest => exact orderKept_request (exec_unknownRequest s) fun _ v => .refl v

theorem step_keepsOrder (e : step s = .next t) : s.KeepsOrder t := by
  unfold step at e
  split at e
  · cases e
    exact keepsOrder_tick s
  · next c rest _ =>
    have hrest : s.KeepsQueues (s.withPending rest) := (State.KeepsQueues.refl s).aside rfl
    exact hrest.order.trans (exec_orderKept c _ t e)

end Sys2Proof.Machine

section
open Sys2Proof Sys2Proof.Machine

/-- Settles O9: each command, and the passage of time, keeps every bounded queue within its bound. -/
theorem queueBoundsKept : Obligations.QueueBoundsKept := fun _ _ h e => (step_keepsOrder e).bounds h

/-- Settles O12: each command, and the passage of time, keeps the lifecycle order that of the pending blocks. -/
theorem lifecycleLawsKept : Obligations.LifecycleLawsKept := fun _ _ h e => (step_keepsOrder e).lifecycle h

end

namespace Sys2Proof.Machine

/-! ## The releases of notices (R152, R174) -/

variable {s t : State}

/-- R174: with a manager bound, room in the path of its origin and an unmarked notice, the oldest such notice leaves the
queue and its frame joins the path. -/
theorem releaseNotice_of_unmarked {manager : Address} {origin : Origin} {lease remaining : Nat}
    {before after : List Notice} {n : Notice} (hb : s.engine.binding = .bound manager origin lease remaining)
    (hr : s.pathRoom 4 2 origin = true) (hq : s.notices.queue = before ++ n :: after)
    (hbefore : ∀ m ∈ before, m.held ≠ none) (hn : n.held = none) :
    s.releaseNotice = some (State.replied
      { s with notices := { s.notices with queue := before ++ after, overrun := false } } origin
      ⟨s.noticeFrame n manager, false⟩) := by
  have hmarked : ∀ m ∈ before, ¬ m.held.isNone = true := fun m hm => by simpa using hbefore m hm
  have hfind : s.notices.queue.find? (·.held.isNone) = some n := by
    rw [hq, List.find?_append, List.find?_eq_none.2 hmarked]
    simp [hn]
  have herase : s.notices.queue.eraseP (·.held.isNone) = before ++ after := by
    rw [hq, List.eraseP_append_right _ hmarked, List.eraseP_cons_of_pos (by simp [hn])]
  simp only [State.releaseNotice, hb, hr, hfind, if_true, placeReply_replied, State.modifyNotices, herase]

/-- R174: nothing is released without a manager, without an unmarked notice, or without room in the path. -/
theorem releaseNotice_eq_none_iff : s.releaseNotice = none ↔
    s.engine.binding = .unbound ∨ (∀ n ∈ s.notices.queue, n.held ≠ none) ∨
      ∃ manager origin lease remaining, s.engine.binding = .bound manager origin lease remaining ∧
        s.pathRoom 4 2 origin = false := by
  have hfind : s.notices.queue.find? (·.held.isNone) = none ↔ ∀ n ∈ s.notices.queue, n.held ≠ none := by
    simp
  unfold State.releaseNotice
  split
  · next hb => simp [hb]
  · next manager origin lease remaining hb =>
    rw [← hfind, hb]
    cases hr : s.pathRoom 4 2 origin with
    | false => simp [hr]
    | true =>
      cases hq : s.notices.queue.find? (·.held.isNone) with
      | none => simp
      | some n => simp [hr]

/-- R174: what one release does. -/
theorem releaseNotice_cases (h : s.releaseNotice = some t) :
    ∃ manager origin lease remaining before n after,
      s.engine.binding = .bound manager origin lease remaining ∧ s.notices.queue = before ++ n :: after ∧
      t = State.replied { s with notices := { s.notices with queue := before ++ after, overrun := false } } origin
        ⟨s.noticeFrame n manager, false⟩ := by
  obtain ⟨manager, origin, lease, remaining, n, -, -, hb, hr, hfind, -⟩ := releaseNotice_some h
  obtain ⟨hn, before, after, hq, hbefore⟩ := List.find?_eq_some_iff_append.1 hfind
  refine ⟨manager, origin, lease, remaining, before, n, after, hb, hq, Option.some.inj (h.symm.trans ?_)⟩
  exact releaseNotice_of_unmarked hb hr hq (fun m hm => by simpa [Option.isSome_iff_ne_none] using hbefore m hm)
    (by simpa using hn)

theorem replied_notices (s : State) (origin : Origin) (item : ReplyItem) :
    (s.replied origin item).notices = s.notices := by
  cases origin <;> rfl

theorem releaseNotices_of_none (h : s.releaseNotice = none) : s.releaseNotices = s := by
  unfold State.releaseNotices
  cases s.notices.queue.length with
  | zero => rfl
  | succ k => simp only [State.releaseUpTo, h]

/-- Each release leaves one notice less, so that the bound on their number leaves none unmade. -/
theorem releaseNotices_of_some (h : s.releaseNotice = some t) : s.releaseNotices = t.releaseNotices := by
  obtain ⟨_, _, _, _, before, n, after, -, hq, ht⟩ := releaseNotice_cases h
  have hlen : s.notices.queue.length = t.notices.queue.length + 1 := by
    rw [ht, replied_notices, hq]
    simp only [List.length_append, List.length_cons]
    omega
  rw [State.releaseNotices, hlen]
  simp only [State.releaseUpTo, h]
  rfl

/-- R174: when the releases of a happening are over, none may follow. -/
theorem releaseNotices_done (s : State) : s.releaseNotices.releaseNotice = none := by
  generalize hk : s.notices.queue.length = k
  induction k generalizing s with
  | zero =>
    have hnone : s.releaseNotice = none :=
      releaseNotice_eq_none_iff.2 (.inr (.inl (by simp [List.eq_nil_of_length_eq_zero hk])))
    rwa [releaseNotices_of_none hnone]
  | succ k ih =>
    cases h : s.releaseNotice with
    | none => rwa [releaseNotices_of_none h]
    | some t =>
      obtain ⟨_, _, _, _, before, n, after, -, hq, ht⟩ := releaseNotice_cases h
      rw [releaseNotices_of_some h]
      refine ih t ?_
      rw [hq] at hk
      rw [ht, replied_notices]
      simp only [List.length_append, List.length_cons] at hk ⊢
      omega

/-! ### Frames that join the management egress one after another (R145, R152) -/

theorem replied_transmitter_of_busy {w : WirePort} (h : w.transmitter ≠ .idle ∨ w.linkUp = false)
    (item : ReplyItem) :
    (w.replied item).transmitter = w.transmitter := by
  rcases ht : w.transmitter with _ | ⟨owner, bytes⟩
  · have hdown : w.linkUp = false := by simpa [ht] using h
    simp [WirePort.replied, ht, hdown]
  · simp [WirePort.replied, ht]

theorem repliedAll_eq (w : WirePort) (more : List ReplyItem) :
    more.foldl WirePort.replied w = { w with
      managementEgress := w.managementEgress ++ more
      transmitter := (more.foldl WirePort.replied w).transmitter } := by
  induction more generalizing w with
  | nil => simp
  | cons item rest ih =>
    rw [List.foldl_cons, ih]
    simp [WirePort.replied]

theorem repliedAll_transmitter_of_busy {w : WirePort} (h : w.transmitter ≠ .idle ∨ w.linkUp = false)
    (more : List ReplyItem) : (more.foldl WirePort.replied w).transmitter = w.transmitter := by
  induction more generalizing w with
  | nil => rfl
  | cons item rest ih =>
    have ht := replied_transmitter_of_busy h item
    rw [List.foldl_cons, ih (by rw [ht]; exact h), ht]

/-- R145: an IDLE transmitter begins the frame at the head as the first joins, and sends it while the rest join. -/
theorem repliedAll_transmitter_of_idle {w : WirePort} {more rest : List ReplyItem} {item : ReplyItem}
    (ht : w.transmitter = .idle) (hup : w.linkUp = true) (hm : more ≠ [])
    (hq : w.managementEgress ++ more = item :: rest) :
    (more.foldl WirePort.replied w).transmitter = .sending .management (withCheck item.frame) := by
  obtain ⟨first, others, rfl⟩ := List.exists_cons_of_ne_nil hm
  have hfirst : (w.replied first).transmitter = .sending .management (withCheck item.frame) := by
    have hhead : w.managementEgress.head?.getD first = item := by
      cases he : w.managementEgress <;> simp_all
    simp [WirePort.replied, ht, hup, hhead]
  rw [List.foldl_cons, repliedAll_transmitter_of_busy (.inl (by simp [hfirst])), hfirst]

/-! ### The end of a happening (R133, R174) -/

/-- R174: from s to t notices have been released: they have left the queue, and frames have joined the two paths. -/
def State.Releases (s t : State) : Prop :=
  ∃ (queue : List Notice) (overrun : Bool) (more replies : List ReplyItem), t = { s with
    notices := { s.notices with queue := queue, overrun := overrun }
    wire := more.foldl WirePort.replied s.wire
    engine := { s.engine with linkReply := s.engine.linkReply ++ replies } }

theorem State.Releases.refl (s : State) : s.Releases s := ⟨s.notices.queue, s.notices.overrun, [], [], by simp⟩

theorem State.Releases.step {s u t : State} (h : s.Releases u) (e : u.releaseNotice = some t) : s.Releases t := by
  obtain ⟨queue, overrun, more, replies, rfl⟩ := h
  obtain ⟨manager, origin, _, _, before, n, after, -, -, rfl⟩ := releaseNotice_cases e
  cases origin with
  | wire => exact ⟨before ++ after, false, more ++ [_], replies, by simp [State.replied]; rfl⟩
  | link =>
    by_cases hs : s.part.state = .silent
    · exact ⟨before ++ after, false, more, replies, by simp [State.replied, hs]⟩
    · exact ⟨before ++ after, false, more, replies ++ [_], by simp [State.replied, hs]; rfl⟩

theorem releaseNotices_releases (s : State) : s.Releases s.releaseNotices :=
  releaseNotices_keeps (fun _ _ e h => h.step e) (.refl s)

theorem select_selects (s : State) : s.select = { s with link := { s.link with
    grant := if s.link.transmitter = .slotOpen ∧ s.link.grant = none then s.selection else s.link.grant } } := by
  unfold State.select
  split <;> rfl

/-- Table 11.3: the body of a notice's frame. -/
theorem noticeFrame_eq (s : State) (n : Notice) (manager : Address) :
    s.noticeFrame n manager = formManagement manager s.params.stationAddress s.unitId 3 n.content.tag
      n.content.requestCode n.content.kindCode
      ([if s.notices.overrun then 1 else 0] ++ beBytes 2 (n.transitions.getD 0) ++ n.content.bytes) := by
  cases ho : s.notices.overrun <;> simp [State.noticeFrame, ho, bitOf, beBytes] <;> rfl

end Sys2Proof.Machine

section
open Sys2Proof Sys2Proof.Machine

/-- Settles O4: the releases as a whole, each release, a notice's frame, and that no release is left to make. -/
theorem finishReleasesAndSelects : Obligations.FinishReleasesAndSelects := by
  refine ⟨fun s => ?changes, ⟨fun s h => ?selects, fun s manager origin lease remaining before after n hb hr hq
    hbefore hn => ?releases⟩, fun s manager n => ?frame, fun s manager origin lease remaining hb => ?done⟩
  case changes =>
    obtain ⟨queue, overrun, more, replies, he⟩ := releaseNotices_releases s
    have hf : s.finish = s.releaseNotices.select := rfl
    rw [select_selects, he] at hf
    have hw := repliedAll_eq s.wire more
    refine ⟨more, replies, ?_, ?_, ?_, ?_, ?_, ?_, ?_, ?_⟩
    · rw [hf]
      constructor <;> simp
    · rw [hf]
    · rw [hf]
    · rw [hf]
    · intro ht
      rw [hf]
      simp [ht]
    · rw [hf]
      exact hw
    · rw [hf]
      rintro (ht | hdown | rfl)
      · exact repliedAll_transmitter_of_busy (.inl ht) more
      · exact repliedAll_transmitter_of_busy (.inr hdown) more
      · rfl
    · intro item rest ht hup hm hq
      rw [hf]
      exact repliedAll_transmitter_of_idle ht hup hm hq
  case selects =>
    rw [State.finish, releaseNotices_of_none (releaseNotice_eq_none_iff.2 h), select_selects]
  case releases =>
    rw [State.finish, releaseNotices_of_some (releaseNotice_of_unmarked hb hr hq hbefore hn)]
    rfl
  case frame =>
    simp only [noticeFrame_eq]
    cases n.content <;> simp [NoticeContent.tag, NoticeContent.requestCode, NoticeContent.kindCode,
      NoticeContent.bytes, beBytes]
  case done =>
    have hkept : s.releaseNotices.engine.binding = s.engine.binding := by
      obtain ⟨_, _, _, _, he⟩ := releaseNotices_releases s
      rw [he]
    have hf : s.finish = s.releaseNotices.select := rfl
    rw [select_selects] at hf
    rw [hf]
    rcases releaseNotice_eq_none_iff.1 (releaseNotices_done s) with hu | hmarked | ⟨_, _, _, _, hb', hr⟩
    · rw [hkept, hb] at hu
      cases hu
    · refine .inl (List.all_eq_true.2 fun n hn => ?_)
      exact Option.isSome_iff_ne_none.2 (hmarked n hn)
    · rw [hkept, hb] at hb'
      cases hb'
      exact .inr hr

end

namespace Sys2Proof.Machine

/-! ## A block's check (R180) -/

theorem crcBytes_length (bytes : List Byte) : (crcBytes bytes).length = 4 := by
  simp [crcBytes]

theorem checkedPart_withCheck (bytes : List Byte) : checkedPart (withCheck bytes) = bytes := by
  simp [checkedPart, withCheck, crcBytes_length]

theorem checkHolds_withCheck (bytes : List Byte) : checkHolds (withCheck bytes) = true := by
  rw [checkHolds, checkedPart_withCheck]
  simp [withCheck, crcBytes_length]

/-! ## Codes and numbers of a block (R143, R179, Table 11.10) -/

theorem flowOfByte_eq_some {v : Nat} {f : FlowId} : flowOfByte v = some f ↔ f.val = v := by
  constructor
  · intro h
    unfold flowOfByte at h
    split at h <;> cases h
    rfl
  · rintro rfl
    exact flowOfByte_val f

theorem classOfByte_eq_some {v : Nat} {c : PortClass} : classOfByte v = some c ↔ c.val = v := by
  constructor
  · intro h
    unfold classOfByte at h
    split at h <;> cases h
    rfl
  · rintro rfl
    exact classOfByte_val c

theorem seqOfField_eq_some {v : Nat} {q : Seq} : seqOfField v = some q ↔ q.toNat = v := by
  constructor
  · intro h
    unfold seqOfField at h
    split at h <;> cases h
    simpa using Nat.mod_eq_of_lt ‹v < 4096›
  · rintro rfl
    simpa [seqOfField] using q.isLt

theorem orderOfCode_eq_some {v : Nat} {o : OrderMode} : orderOfCode v = some o ↔ OrderMode.code o = v := by
  constructor
  · intro h
    unfold orderOfCode at h
    split at h <;> cases h <;> rfl
  · rintro rfl
    exact orderOfCode_code o

theorem verdictOfCode_eq_some {v : Nat} {d : Verdict} : verdictOfCode v = some d ↔ Verdict.code d = v := by
  constructor
  · intro h
    unfold verdictOfCode at h
    split at h <;> cases h <;> rfl
  · rintro rfl
    cases d <;> rfl

theorem frameOfBytes_eq_some {bytes : List Byte} {frame : Frame} :
    frameOfBytes bytes = some frame ↔ bytes = frame ∧ wholeFrame frame = true := by
  unfold frameOfBytes
  split
  · next h =>
    constructor
    · intro e
      cases e
      exact ⟨rfl, h⟩
    · rintro ⟨rfl, -⟩
      rfl
  · next h =>
    constructor
    · intro e
      cases e
    · rintro ⟨rfl, h'⟩
      exact absurd h' h

theorem seqOfField_toNat (q : Seq) : seqOfField q.toNat = some q := seqOfField_eq_some.2 rfl

theorem verdictOfCode_code (d : Verdict) : verdictOfCode (Verdict.code d) = some d := verdictOfCode_eq_some.2 rfl

theorem frameOfBytes_of_whole {frame : Frame} (h : wholeFrame frame = true) : frameOfBytes frame = some frame :=
  frameOfBytes_eq_some.2 ⟨rfl, h⟩

theorem verdictCode_lt (d : Verdict) : Verdict.code d < 256 := by cases d <;> decide

/-- A sequence number in its two bytes. -/
theorem field_seq (q : Seq) (after : List Byte) : field (beBytes 2 q.toNat ++ after) 0 2 = q.toNat :=
  field_beBytes (by have := q.isLt; omega) after

theorem field_seq_end (q : Seq) : field (beBytes 2 q.toNat) 0 2 = q.toNat := by
  simpa using field_seq q []

theorem field_flow (f : FlowId) (after : List Byte) : field (beBytes 1 f.val ++ after) 0 1 = f.val :=
  field_beBytes (by have := f.isLt; omega) after

theorem field_flow_end (f : FlowId) : field (beBytes 1 f.val) 0 1 = f.val := by
  simpa using field_flow f []

/-! ## A block that is formed reads back (Tables 11.1, 11.2) -/

theorem blockKind_lt (b : BlockBody) : BlockBody.kind b < 256 := by
  cases b <;> simp [BlockBody.kind]

theorem blockFlags_lt (b : BlockBody) : BlockBody.flags b < 2 := by
  unfold BlockBody.flags
  split <;> decide

theorem payload_length_lt {b : BlockBody} (h : b.wellFormed = true) : (BlockBody.payload b).length < 65536 := by
  cases b with
  | hello unit seen => cases seen <;> simp [BlockBody.payload]
  | status f a map high => cases high <;> simp [BlockBody.payload]
  | data f q frame =>
    simp only [BlockBody.wellFormed, wholeFrame, Bool.and_eq_true, decide_eq_true_eq] at h
    simp [BlockBody.payload]
    omega
  | bulk cls frame =>
    simp only [BlockBody.wellFormed, wholeFrame, Bool.and_eq_true, decide_eq_true_eq] at h
    simp [BlockBody.payload]
    omega
  | keepalive | leave | openFlow | openAck | close | closeAck | abort | advance => simp [BlockBody.payload]

/-- R179: a STATUS that is formed has bit 0 of its map clear. -/
theorem wellFormed_status {f : FlowId} {a : Seq} {map : BitVec 64} {high : Option Seq} :
    (BlockBody.status f a map high).wellFormed = true ↔ hasBit map.toNat 0 = false := by
  rw [BlockBody.wellFormed, Bool.not_eq_true']
  rfl

theorem readBody_payload {b : BlockBody} (h : b.wellFormed = true) :
    readBody (BlockBody.kind b) (BlockBody.flags b == 1) (BlockBody.payload b) = some b := by
  cases b with
  | hello unit seen =>
    cases seen <;>
      simp [readBody, BlockBody.kind, BlockBody.flags, BlockBody.payload, readHello, field_skip, field_word,
        field_word_end]
  | keepalive => rfl
  | leave => rfl
  | openFlow f window order =>
    simp only [BlockBody.wellFormed, Bool.and_eq_true, decide_eq_true_eq] at h
    simp [readBody, BlockBody.kind, BlockBody.flags, BlockBody.payload, plainKind, readOpen, byteAt, field_skip,
      field_flow, field_beBytes, field_beBytes_end, orderCode_lt, show window < 256 by omega, h, List.append_assoc]
  | openAck f verdict =>
    simp [readBody, BlockBody.kind, BlockBody.flags, BlockBody.payload, plainKind, readOpenAck, byteAt, field_skip,
      field_flow, field_beBytes_end, verdictCode_lt, verdictOfCode_code]
  | close f | closeAck f | abort f =>
    simp [readBody, BlockBody.kind, BlockBody.flags, BlockBody.payload, plainKind, readFlowOnly, byteAt,
      field_flow_end]
  | data f q frame =>
    simp [readBody, BlockBody.kind, BlockBody.flags, BlockBody.payload, plainKind, readData, byteAt, field_skip,
      field_flow, field_seq, seqOfField_toNat, frameOfBytes_of_whole (show wholeFrame frame = true from h),
      drop_skip, List.append_assoc, show 3 ≤ 1 + (2 + frame.length) by omega]
  | status f a map high =>
    have hbit := wellFormed_status.1 h
    cases high <;>
      simp [readBody, BlockBody.kind, BlockBody.flags, BlockBody.payload, readStatus, readHigh, byteAt, field_skip,
        field_flow, field_seq, field_seq_end, field_word, field_word_end, seqOfField_toNat, hbit,
        List.append_assoc]
  | advance f q =>
    simp [readBody, BlockBody.kind, BlockBody.flags, BlockBody.payload, plainKind, readAdvance, byteAt, field_skip,
      field_flow, field_seq_end, seqOfField_toNat]
  | bulk cls frame =>
    have hcls : cls.val < 256 := by have := cls.isLt; omega
    simp [readBody, BlockBody.kind, BlockBody.flags, BlockBody.payload, plainKind, readBulk, byteAt, field_beBytes,
      hcls, frameOfBytes_of_whole (show wholeFrame frame = true from h)]

/-- R143, R179: the common header between a block and its body. -/
theorem readBlock_header {kind flags : Nat} (hk : kind < 256) (hf : flags < 2) (epoch : Epoch) {payload : List Byte}
    (hp : payload.length < 65536) :
    readBlock (beBytes 1 kind ++ beBytes 1 flags ++ beBytes 4 epoch.toNat ++ beBytes 2 payload.length ++ payload) =
      (readBody kind (flags == 1) payload).map fun body => { epoch := epoch, body := body } := by
  generalize hbytes : beBytes 1 kind ++ beBytes 1 flags ++ beBytes 4 epoch.toNat ++ beBytes 2 payload.length ++
    payload = bytes
  have hlen : bytes.length = 8 + payload.length := by
    rw [← hbytes]
    simp
    omega
  have hkind : byteAt bytes 0 = kind := by
    simp [← hbytes, byteAt, List.append_assoc, field_beBytes, hk]
  have hflags : byteAt bytes 1 = flags := by
    simp [← hbytes, byteAt, List.append_assoc, field_skip, field_beBytes, show flags < 256 by omega]
  have hepoch : field bytes 2 4 = epoch.toNat := by
    simp [← hbytes, List.append_assoc, field_skip, field_word]
  have hsize : field bytes 6 2 = payload.length := by
    simp [← hbytes, List.append_assoc, field_skip, field_beBytes, hp]
  have hbody : bytes.drop 8 = payload := by
    simp [← hbytes, List.append_assoc, drop_skip]
  rw [readBlock, if_neg (by omega), if_neg (by omega), if_neg (by omega), hkind, hflags, hepoch, hbody,
    BitVec.ofNat_toNat, BitVec.setWidth_eq]

/-! ## Bytes that read as a block (R143, R179) -/

/-- The bytes of a field stand before what follows it. -/
theorem beBytes_field_append {l : List Byte} {offset size : Nat} (h : offset + size ≤ l.length) :
    beBytes size (field l offset size) ++ l.drop (offset + size) = l.drop offset := by
  rw [beBytes_field h, slice, ← List.drop_drop, List.take_append_drop]

theorem beBytes_field_last {l : List Byte} {offset size : Nat} (h : l.length = offset + size) :
    beBytes size (field l offset size) = l.drop offset := by
  simpa [← h] using beBytes_field_append (l := l) h.ge

/-- A field of one byte is a byte of the payload. -/
theorem beBytes_byteAt_append {l : List Byte} {offset : Nat} (h : offset + 1 ≤ l.length) :
    beBytes 1 (byteAt l offset) ++ l.drop (offset + 1) = l.drop offset := beBytes_field_append h

theorem beBytes_byteAt_last {l : List Byte} {offset : Nat} (h : l.length = offset + 1) :
    beBytes 1 (byteAt l offset) = l.drop offset := beBytes_field_last h

/-- A field as a word is the number in that field. -/
theorem toNat_ofNat_field {l : List Byte} {w offset size : Nat} (hw : 2 ^ w = 256 ^ size)
    (h : offset + size ≤ l.length) : (BitVec.ofNat w (field l offset size)).toNat = field l offset size := by
  rw [BitVec.toNat_ofNat, hw, Nat.mod_eq_of_lt (field_lt h)]

/-- A body is well formed, and its kind, its optional field and its payload are those given. -/
structure BlockBody.Spells (b : BlockBody) (kind : Nat) (optional : Bool) (p : List Byte) : Prop where
  wellFormed : b.wellFormed = true
  kind : BlockBody.kind b = kind
  flags : BlockBody.flags b = optional.toNat
  payload : BlockBody.payload b = p

variable {p : List Byte} {b : BlockBody} {optional : Bool}

theorem readHello_spells (h : readHello optional p = some b) : BlockBody.Spells b 0x01 optional p := by
  cases optional with
  | false =>
    obtain ⟨hl, rfl⟩ : p.length = 6 ∧ BlockBody.hello (BitVec.ofNat 48 (field p 0 6)) none = b := by
      simpa [readHello] using h
    refine ⟨rfl, rfl, rfl, ?_⟩
    rw [BlockBody.payload, toNat_ofNat_field (by norm_num) hl.ge, beBytes_field_last hl, List.drop_zero]
  | true =>
    obtain ⟨hl, rfl⟩ : p.length = 10 ∧ BlockBody.hello (BitVec.ofNat 48 (field p 0 6))
        (some (BitVec.ofNat 32 (field p 6 4))) = b := by
      simpa [readHello] using h
    refine ⟨rfl, rfl, rfl, ?_⟩
    rw [BlockBody.payload, toNat_ofNat_field (by norm_num) (by omega), toNat_ofNat_field (by norm_num) hl.ge,
      beBytes_field_last (offset := 6) hl]
    exact beBytes_field_append (offset := 0) (by omega)

theorem readOpen_spells (h : readOpen p = some b) : BlockBody.Spells b 0x10 false p := by
  simp only [readOpen, Option.ite_none_right_eq_some, Option.bind_eq_bind, Option.bind_eq_some_iff,
    flowOfByte_eq_some, orderOfCode_eq_some, Option.some.injEq] at h
  obtain ⟨hl, f, hf, order, ho, hw, rfl⟩ := h
  refine ⟨by simpa [BlockBody.wellFormed] using hw, rfl, rfl, ?_⟩
  rw [BlockBody.payload, hf, ho, List.append_assoc, beBytes_byteAt_last hl, beBytes_byteAt_append (by omega)]
  exact beBytes_byteAt_append (offset := 0) (by omega)

theorem readOpenAck_spells (h : readOpenAck p = some b) : BlockBody.Spells b 0x11 false p := by
  simp only [readOpenAck, Option.ite_none_right_eq_some, Option.bind_eq_bind, Option.bind_eq_some_iff,
    flowOfByte_eq_some, verdictOfCode_eq_some, Option.some.injEq] at h
  obtain ⟨hl, f, hf, verdict, hv, rfl⟩ := h
  refine ⟨rfl, rfl, rfl, ?_⟩
  rw [BlockBody.payload, hf, hv, beBytes_byteAt_last hl]
  exact beBytes_byteAt_append (offset := 0) (by omega)

/-- A payload of one flow number is that of the block it makes. -/
theorem readFlowOnly_eq_some {make : FlowId → BlockBody} (h : readFlowOnly make p = some b) :
    ∃ f, make f = b ∧ beBytes 1 f.val = p := by
  simp only [readFlowOnly, Option.ite_none_right_eq_some, Option.map_eq_some_iff, flowOfByte_eq_some] at h
  obtain ⟨hl, f, hf, rfl⟩ := h
  exact ⟨f, rfl, hf ▸ beBytes_byteAt_last (offset := 0) hl⟩

theorem readData_spells (h : readData p = some b) : BlockBody.Spells b 0x20 false p := by
  simp only [readData, Option.ite_none_right_eq_some, Option.bind_eq_bind, Option.bind_eq_some_iff,
    flowOfByte_eq_some, seqOfField_eq_some, frameOfBytes_eq_some, Option.some.injEq] at h
  obtain ⟨hl, f, hf, q, hq, frame, ⟨rfl, hframe⟩, rfl⟩ := h
  refine ⟨hframe, rfl, rfl, ?_⟩
  rw [BlockBody.payload, hf, hq, List.append_assoc, beBytes_field_append hl]
  exact beBytes_byteAt_append (offset := 0) (by omega)

/-- The high mark that a STATUS reads to is the bytes behind its map. -/
theorem readHigh_eq_some {high : Option Seq} (hl : p.length = if optional then 13 else 11)
    (h : readHigh optional p = some high) :
    high.isSome = optional ∧ (high.elim [] fun q => beBytes 2 q.toNat) = p.drop 11 := by
  cases optional with
  | false =>
    obtain rfl : none = high := by simpa [readHigh] using h
    exact ⟨rfl, (List.drop_of_length_le hl.le).symm⟩
  | true =>
    simp only [readHigh, if_true, Option.map_eq_some_iff, seqOfField_eq_some] at h
    obtain ⟨q, hq, rfl⟩ := h
    refine ⟨rfl, ?_⟩
    rw [Option.elim_some, hq, beBytes_field_last hl]

theorem status_flags (f : FlowId) (a : Seq) (map : BitVec 64) (high : Option Seq) :
    BlockBody.flags (.status f a map high) = high.isSome.toNat := by
  cases high <;> rfl

theorem status_payload (f : FlowId) (a : Seq) (map : BitVec 64) (high : Option Seq) :
    BlockBody.payload (.status f a map high) = beBytes 1 f.val ++ (beBytes 2 a.toNat ++
      (beBytes 8 map.toNat ++ high.elim [] fun q => beBytes 2 q.toNat)) := by
  cases high <;> simp [BlockBody.payload]

theorem readStatus_spells (h : readStatus optional p = some b) : BlockBody.Spells b 0x21 optional p := by
  simp only [readStatus, Option.ite_none_right_eq_some, Option.ite_none_left_eq_some, Option.bind_eq_bind,
    Option.bind_eq_some_iff, flowOfByte_eq_some, seqOfField_eq_some, Option.some.injEq] at h
  obtain ⟨hl, f, hf, a, ha, high, hhigh, hbit, rfl⟩ := h
  obtain ⟨hsome, hbytes⟩ := readHigh_eq_some hl hhigh
  have hlen : 11 ≤ p.length := by
    rw [hl]
    split <;> omega
  have hmap : (BitVec.ofNat 64 (field p 3 8)).toNat = field p 3 8 := toNat_ofNat_field (by norm_num) hlen
  refine ⟨?_, rfl, by rw [status_flags, hsome], ?_⟩
  · rw [wellFormed_status, hmap]
    exact Bool.eq_false_of_not_eq_true hbit
  · rw [status_payload, hf, ha, hmap, hbytes, beBytes_field_append hlen, beBytes_field_append (by omega)]
    exact beBytes_byteAt_append (offset := 0) (by omega)

theorem readAdvance_spells (h : readAdvance p = some b) : BlockBody.Spells b 0x22 false p := by
  simp only [readAdvance, Option.ite_none_right_eq_some, Option.bind_eq_bind, Option.bind_eq_some_iff,
    flowOfByte_eq_some, seqOfField_eq_some, Option.some.injEq] at h
  obtain ⟨hl, f, hf, q, hq, rfl⟩ := h
  refine ⟨rfl, rfl, rfl, ?_⟩
  rw [BlockBody.payload, hf, hq, beBytes_field_last hl]
  exact beBytes_byteAt_append (offset := 0) (by omega)

theorem readBulk_spells (h : readBulk p = some b) : BlockBody.Spells b 0x30 false p := by
  simp only [readBulk, Option.ite_none_right_eq_some, Option.bind_eq_bind, Option.bind_eq_some_iff,
    classOfByte_eq_some, frameOfBytes_eq_some, Option.some.injEq] at h
  obtain ⟨hl, cls, hcls, frame, ⟨rfl, hframe⟩, rfl⟩ := h
  refine ⟨hframe, rfl, rfl, ?_⟩
  rw [BlockBody.payload, hcls]
  exact beBytes_byteAt_append (offset := 0) hl

/-- R179: a kind without an optional field reads only with flag bit 0 clear. -/
theorem plainKind_eq_some {read : Option BlockBody} (h : plainKind optional read = some b) :
    optional = false ∧ read = some b := by
  cases optional with
  | false => exact ⟨rfl, h⟩
  | true => cases h

theorem readBody_spells {kind : Nat} (h : readBody kind optional p = some b) :
    BlockBody.Spells b kind optional p := by
  unfold readBody at h
  split at h
  case h_1 => exact readHello_spells h
  case h_10 => exact readStatus_spells h
  case h_13 => cases h
  all_goals obtain ⟨rfl, h⟩ := plainKind_eq_some h
  case h_2 | h_3 =>
    obtain ⟨rfl, ⟨⟩⟩ := Option.ite_none_right_eq_some.1 h
    exact ⟨rfl, rfl, rfl, rfl⟩
  case h_4 => exact readOpen_spells h
  case h_5 => exact readOpenAck_spells h
  case h_6 | h_7 | h_8 =>
    obtain ⟨f, rfl, hp⟩ := readFlowOnly_eq_some h
    exact ⟨rfl, rfl, rfl, hp⟩
  case h_9 => exact readData_spells h
  case h_11 => exact readAdvance_spells h
  case h_12 => exact readBulk_spells h

/-- R143, R179: bytes that read are the header and the payload of the block they read to. -/
theorem blockBytes_of_readBlock {bytes : List Byte} {b : LinkBlock} (h : readBlock bytes = some b) :
    b.body.wellFormed = true ∧ blockBytes b = bytes := by
  simp only [readBlock, Option.ite_none_left_eq_some, Option.map_eq_some_iff] at h
  obtain ⟨hlen, hflags, hsize, body, hbody, rfl⟩ := h
  obtain ⟨hwf, hkind, hflag, hpayload⟩ := readBody_spells hbody
  refine ⟨hwf, ?_⟩
  have hbit : (byteAt bytes 1 == 1).toNat = byteAt bytes 1 := by
    obtain h0 | h1 : byteAt bytes 1 = 0 ∨ byteAt bytes 1 = 1 := by omega
    · rw [h0]; rfl
    · rw [h1]; rfl
  have hcount : (bytes.drop 8).length = field bytes 6 2 := by
    rw [List.length_drop]
    omega
  have hepoch : (BitVec.ofNat 32 (field bytes 2 4)).toNat = field bytes 2 4 :=
    toNat_ofNat_field (by norm_num) (by omega)
  rw [blockBytes, hkind, hflag, hpayload, hbit, hcount, hepoch, List.append_assoc, List.append_assoc,
    List.append_assoc, beBytes_field_append (by omega), beBytes_field_append (by omega),
    beBytes_byteAt_append (by omega)]
  exact beBytes_byteAt_append (offset := 0) (by omega)

/-- R143: the header and the payload of a well-formed block read back as it. -/
theorem readBlock_blockBytes {b : LinkBlock} (h : b.body.wellFormed = true) :
    readBlock (blockBytes b) = some b := by
  rw [blockBytes, readBlock_header (blockKind_lt b.body) (blockFlags_lt b.body) b.epoch (payload_length_lt h),
    readBody_payload h]
  rfl

end Sys2Proof.Machine

section
open Sys2Proof Sys2Proof.Machine

/-- Settles O15: what forms a block and what reads it agree kind by kind (`readBody_payload`, `readBody_spells`) and
in the common header; the check is stripped as it was put on. -/
theorem linkBlockRoundTrip : Obligations.LinkBlockRoundTrip := by
  refine ⟨fun b h => ⟨checkHolds_withCheck (blockBytes b), ?_⟩, fun bytes b h => blockBytes_of_readBlock h⟩
  rw [formBlock, checkedPart_withCheck]
  exact readBlock_blockBytes h

end

namespace Sys2Proof.Machine

/-! ## A frame at request intake (R149 to R151) -/

/-- R105, R115: the frame that a command brings goes to intake, in a state that differs in the link and the
partnership only. -/
theorem exec_of_brings {s u : State} {c : Instr} {origin : Origin} {v : FrameView} (h : s.Brings c origin v u) :
    exec c s = .next (u.intake origin v).finish ∧ ∃ link part, u = { s with link := link, part := part } := by
  obtain ⟨htype, ⟨received, rfl, hg, rfl, rfl, rfl, hdest⟩ |
    ⟨epoch, cls, frame, rest, rfl, hq, hp, hepoch, rfl, rfl, hdest, rfl⟩⟩ := h
  · exact ⟨exec_wireFrameReception_management hg ((isManagement_iff _ _).2 ⟨htype, hdest⟩), _, _, rfl⟩
  · refine ⟨(exec_bulkReceived_accepted hq hp hepoch).trans (next_finish_congr (bulkAtPath_request ?_ cls)),
      _, _, rfl⟩
    simp only [State.isLinkRequest, Bool.and_eq_true, beq_iff_eq]
    exact ⟨htype, hdest⟩

/-- R149: the screen of an engine that is READY. -/
theorem screensOut_iff {s : State} (h : s.engine.state = .ready) (v : FrameView) (m : ManagementHeader) :
    s.screensOut v m = true ↔ ¬ s.Screens v m := by
  rw [← not_iff_not, not_not, Bool.not_eq_true]
  simp [State.screensOut, State.Screens, h, kindRequest, and_assoc, or_assoc, imp_iff_not_or]

theorem lacksBinding_iff (s : State) (source : Address) (code : Byte) :
    s.lacksBinding source code = true ↔ ¬ (code = 0x01 ∨ code = 0x02 ∨ s.boundTo source = true) := by
  simp [State.lacksBinding, codeIdentify, codeBind, and_assoc]

theorem queued_iff (e : Engine) (source : Address) (tag : Tag) :
    e.queued source tag = true ↔ ∃ r ∈ e.requests, r.source = source ∧ r.tag = tag := by
  simp [Engine.queued]

/-- R150 step 2: the entry found is the first of those with the source and tag. -/
theorem recorded_eq_head? (e : Engine) (source : Address) (tag : Tag) :
    e.recorded source tag = (e.record.filter fun r => r.source == source && r.tag == tag).head? :=
  (List.head?_filter).symm

theorem answerAtIntake_eq (s : State) (origin : Origin) (frame : Frame) : s.answerAtIntake origin frame =
    if s.pathRoom 8 4 origin = true then s.replied origin ⟨frame, false⟩ else s.countIgnored := by
  rw [State.answerAtIntake, placeReply_replied]

theorem intake_malformed {s : State} {v : FrameView} (h : readManagement v.payload = none) (origin : Origin) :
    s.intake origin v = s.countIgnored := by
  simp only [State.intake, h]

theorem intake_screened {s : State} {v : FrameView} {m : ManagementHeader} (hm : readManagement v.payload = some m)
    (h : s.screensOut v m = true) (origin : Origin) : s.intake origin v = s.countIgnored := by
  simp only [State.intake, hm, h, if_true]

/-- R149: a frame that arrives while the engine is RESTARTING. -/
theorem intake_restarting {s : State} (h : s.engine.state ≠ .ready) (origin : Origin) (v : FrameView) :
    s.intake origin v = s.countIgnored := by
  cases hm : readManagement v.payload with
  | none => exact intake_malformed hm origin
  | some m => exact intake_screened hm (by simp [State.screensOut, h]) origin

theorem intake_screens {s : State} {v : FrameView} {m : ManagementHeader} (hready : s.engine.state = .ready)
    (hm : readManagement v.payload = some m) (h : s.Screens v m) (origin : Origin) :
    s.intake origin v = s.admitRequest ⟨v.source, origin, m.tag, m.code, m.body⟩ := by
  have hs : s.screensOut v m = false := by
    rw [← Bool.not_eq_true, screensOut_iff hready, not_not]
    exact h
  simp only [State.intake, hm, hs, Bool.false_eq_true, if_false]

theorem admitRequest_unbound {s : State} {r : Request} (h : s.lacksBinding r.source r.code = true) :
    s.admitRequest r = s.answerAtIntake r.origin (s.responseFrame r.source r.tag r.code .notBound []) := if_pos h

theorem admitRequest_copy {s : State} {r : Request} {entry : RecordEntry}
    (hb : s.lacksBinding r.source r.code = false) (h : s.engine.recorded r.source r.tag = some entry) :
    s.admitRequest r = s.answerAtIntake r.origin entry.response := by
  simp [State.admitRequest, hb, h]

theorem admitRequest_waiting {s : State} {r : Request} (hb : s.lacksBinding r.source r.code = false)
    (h : s.engine.recorded r.source r.tag = none) (hq : s.engine.queued r.source r.tag = true) :
    s.admitRequest r = s.countIgnored := by
  simp [State.admitRequest, hb, h, hq]

theorem admitRequest_new {s : State} {r : Request} (hb : s.lacksBinding r.source r.code = false)
    (h : s.engine.recorded r.source r.tag = none) (hq : s.engine.queued r.source r.tag = false) :
    s.admitRequest r = s.enqueue r := by
  simp [State.admitRequest, hb, h, hq]

theorem enqueue_full {s : State} {r : Request} (h : 8 ≤ s.engine.requests.length) :
    s.enqueue r = s.answerAtIntake r.origin (s.responseFrame r.source r.tag r.code .busy []) := if_neg (by omega)

/-- R151, R153: a request that joins the queue renews the lease of the bound manager. -/
theorem enqueue_joins {s : State} {r : Request} (h : s.engine.requests.length < 8) :
    s.enqueue r = { s with engine := { s.engine with
      requests := s.engine.requests ++ [r]
      binding := match s.engine.binding with
        | .unbound => .unbound
        | .bound manager route lease remaining =>
          .bound manager route lease (if manager = r.source then lease * 1000 else remaining) } } := by
  rw [State.enqueue, if_pos h]
  cases hb : s.engine.binding with
  | unbound => simp [State.modifyEngine, State.boundTo, hb]
  | bound manager route lease remaining =>
    by_cases hm : manager = r.source <;> simp [State.modifyEngine, State.boundTo, Binding.renewed, hb, hm]

/-! ## A request that is no longer bound (R156) -/

theorem headRequest_of_cons {s : State} {r : Request} {rest : List Request} (hq : s.engine.requests = r :: rest)
    (hready : s.engine.state = .ready) (hroom : s.pathRoom 8 4 r.origin = true) : s.headRequest = some r := by
  simp [State.headRequest, hq, hready, hroom]

/-- R156, Table 11.4: each code but that of RESTART names a command that executes a request of that code. -/
theorem exec_commandOfCode {code : Byte} (hc : code ∈ requestCodes) (h : code ≠ codeRestart) (s : State) :
    ∃ work, exec (commandOfCode code) s = s.execute (· == code) work := by
  simp only [requestCodes, List.mem_cons, List.not_mem_nil, or_false, h] at hc
  rcases hc with rfl | rfl | rfl | rfl | rfl | rfl | rfl | rfl | rfl | rfl | rfl | rfl | rfl | rfl | rfl | rfl | rfl |
    rfl | rfl
  all_goals exact ⟨_, rfl⟩

/-- R156, R173: a response to a request that has marked no notice. -/
theorem respond_unmarked {s : State} (h : ∀ n ∈ s.notices.queue, n.held = none) (r : Request) (item : ReplyItem) :
    s.respond r item = State.replied { s with engine := { s.engine with executing := none } } r.origin item := by
  rw [State.respond, placeReply_replied]
  cases r.origin <;> simp [State.replied, State.modifyNotices, State.modifyEngine, clearMarks_unmarked h]

theorem executeRestart_unbound {s : State} {r : Request} (h : s.lacksBinding r.source r.code = true) :
    s.executeRestart r = s.refuseUnbound r := by
  simp [State.executeRestart, State.restartDiscarded, h, executeRequest_unbound h]

theorem execute_unbound {s : State} {r : Request} {named : Byte → Bool} (hhead : s.headRequest = some r)
    (hn : named r.code = true) (h : (s.begin r).lacksBinding r.source r.code = true)
    (work : Request → State → Answer × State) :
    s.execute named work = .next ((s.begin r).refuseUnbound r).finish := by
  rw [execute_of_head hhead hn, executeRequest_unbound h]

/-- R156: the command of a request's code answers it NOT_BOUND when its source has lost the binding. -/
theorem exec_unbound {s : State} {r : Request} (hhead : s.headRequest = some r)
    (h : (s.begin r).lacksBinding r.source r.code = true) :
    exec (commandOfCode r.code) s = .next ((s.begin r).refuseUnbound r).finish := by
  by_cases hm : r.code ∈ requestCodes
  · by_cases hc : r.code = codeRestart
    · have hx : exec .restart s = .next ((s.begin r).executeRestart r).finish := by
        simp [exec, execRestart, hhead, hc]
      rw [hc]
      exact hx.trans (next_finish_congr (executeRestart_unbound h))
    · obtain ⟨work, hx⟩ := exec_commandOfCode hm hc s
      exact hx.trans (execute_unbound (named := (· == r.code)) hhead (beq_self_eq_true r.code) h work)
  · rw [commandOfCode_unknown hm, exec_unknownRequest, execute_unbound hhead (by simpa using hm) h]

end Sys2Proof.Machine

section
open Sys2Proof Sys2Proof.Machine

/-- Settles O47: a frame by the checks of intake in their order, and a queued request that has lost its binding. -/
theorem intakeAnswersOrIgnores : Obligations.IntakeAnswersOrIgnores := by
  refine ⟨?frame, ?unbound⟩
  case frame =>
    intro s u c origin v hbrings ignored answered
    obtain ⟨hx, link, part, hu⟩ := exec_of_brings hbrings
    subst hu
    refine ⟨fun hbad => hx.trans (next_finish_congr (hbad.elim (fun hr => intake_restarting (by exact hr) origin v)
      fun hr => intake_malformed hr origin)), ?_⟩
    intro h hready hread admitted copies waits
    have becomes : s.Screens v h → ∀ {t : State},
        State.admitRequest { s with link := link, part := part } ⟨v.source, origin, h.tag, h.code, h.body⟩ = t →
        exec c s = .next t.finish := fun hs _ e =>
      hx.trans (next_finish_congr ((intake_screens (by exact hready) hread (by exact hs) origin).trans e))
    have lacks : s.lacksBinding v.source h.code = true ↔ ¬ admitted := lacksBinding_iff s v.source h.code
    have recorded : s.engine.recorded v.source h.tag = copies.head? := recorded_eq_head? s.engine v.source h.tag
    have queued : s.engine.queued v.source h.tag = true ↔ waits := queued_iff s.engine v.source h.tag
    refine ⟨fun hs => hx.trans (next_finish_congr ?screened), fun hs hb => becomes hs ?notBound,
      fun hs ha => ?admitted⟩
    case screened => exact intake_screened hread ((screensOut_iff (by exact hready) v h).2 (by exact hs)) origin
    case notBound => exact (admitRequest_unbound (lacks.2 hb)).trans (answerAtIntake_eq ..)
    case admitted =>
      have hbound : s.lacksBinding v.source h.code = false := Bool.eq_false_iff.2 fun hl => lacks.1 hl ha
      refine ⟨fun entry more hc => becomes hs ?copy, fun hc hw => becomes hs ?waiting,
        fun hc hw h8 => becomes hs ?busy, fun hc hw h8 => becomes hs ?queued⟩
      case copy =>
        exact (admitRequest_copy hbound (recorded.trans (congrArg List.head? hc))).trans (answerAtIntake_eq ..)
      case waiting => exact admitRequest_waiting hbound (recorded.trans (congrArg List.head? hc)) (queued.2 hw)
      all_goals
        have hnew := admitRequest_new (s := { s with link := link, part := part })
          (r := ⟨v.source, origin, h.tag, h.code, h.body⟩) hbound (recorded.trans (congrArg List.head? hc))
          (Bool.eq_false_iff.2 fun hq => hw (queued.1 hq))
      case busy => exact (hnew.trans (enqueue_full h8)).trans (answerAtIntake_eq ..)
      case queued => exact hnew.trans (enqueue_joins h8)
  case unbound =>
    intro s r rest hq hready hroom hmarks h1 h2 hbound
    have hlacks : (s.begin r).lacksBinding r.source r.code = true :=
      (lacksBinding_iff _ _ _).2 fun h => h.elim h1 fun h => h.elim h2 (Bool.eq_false_iff.1 hbound)
    rw [exec_unbound (headRequest_of_cons hq hready hroom) hlacks, State.refuseUnbound,
      respond_unmarked (s := s.begin r) hmarks]
    simp only [begin_eq, hq]
    rfl

end

namespace Sys2Proof.Machine

/-! ## FLOW_STATUS (R161, Table 11.8) -/

/-- A number in a field that may be too small for it reads back modulo the size of the field. -/
theorem field_beBytes_mod (size v : Nat) (after : List Byte) :
    field (beBytes size v ++ after) 0 size = v % 256 ^ size :=
  (field_between (before := []) rfl (beBytes_length _ _)).trans (beValue_beBytes _ _)

theorem field_beBytes_mod_end (size v : Nat) : field (beBytes size v) 0 size = v % 256 ^ size := by
  simpa using field_beBytes_mod size v []

/-- Table 11.8: the marks of the flag byte. -/
def Flow.marks (fl : Flow) : List Bool :=
  [fl.suspended, fl.retxTimer.isRunning, fl.statusPending, fl.deferred.isSome]

theorem Flow.flags_eq (fl : Flow) :
    bitOf fl.suspended 0 + bitOf fl.retxTimer.isRunning 1 + bitOf fl.statusPending 2 + bitOf fl.deferred.isSome 3 =
      flagBits fl.marks := by
  simp only [bitOf_eq, flagBits, Flow.marks, List.foldr]
  ring

theorem Flow.flags_lt (fl : Flow) : flagBits fl.marks < 256 :=
  (flagBits_lt fl.marks).trans_le (by simp [Flow.marks])

theorem isRunning_iff (t : Timer) : t.isRunning = true ↔ t ≠ .stopped := by
  cases t <;> simp [Timer.isRunning]

theorem flowStateCode_lt (st : FlowState) : FlowState.code st < 256 := by cases st <;> decide

theorem drainOriginCode_eq (origin : Option DrainOrigin) : drainOriginCode origin % 256 =
    match origin with
    | none => 0
    | some .localEnd => 1
    | some .peerEnd => 2 := by
  rcases origin with _ | _ | _ <;> rfl

theorem failureCode_eq (cause : Option FailureCause) : detailCode (cause.map FailureCause.detail) % 256 =
    match cause with
    | none => 0
    | some .peerAbort => 4
    | some .retryExhausted => 5
    | some .partnerRestart => 6
    | some .partnerLost => 7
    | some .partnerLeft => 8 := by
  rcases cause with _ | _ | _ | _ | _ | _ <;> rfl


theorem deferredCode_eq (deferred : Option Deferred) :
    ((deferred.map fun d => (DeferredCode.byte d.code).toNat).getD 0) % 256 =
      match deferred with
      | none => 0
      | some ⟨.flowOpen, _⟩ => 0x20
      | some ⟨.flowClose, _⟩ => 0x21 := by
  rcases deferred with _ | ⟨_ | _, tag⟩ <;> rfl

theorem deferredTag_eq (deferred : Option Deferred) :
    ((deferred.map (·.tag.toNat)).getD 0) % 65536 =
      match deferred with
      | none => 0
      | some d => d.tag.toNat := by
  rcases deferred with _ | ⟨code, tag⟩
  · rfl
  · exact Nat.mod_eq_of_lt tag.isLt

theorem pendingBlockCode_lt (block : Option LifecycleBlock) : pendingBlockCode block < 256 := by
  rcases block with _ | _ | verdict | _ | _ | _
  case some.openAck => cases verdict <;> decide
  all_goals simp [pendingBlockCode]

theorem seq_mod_word (q : Seq) : q.toNat % 65536 = q.toNat := Nat.mod_eq_of_lt (by have := q.isLt; omega)

theorem flow_mod_byte (f : FlowId) : f.val % 256 = f.val := Nat.mod_eq_of_lt (by have := f.isLt; omega)

theorem flowStatusBody_eq (s : State) (f : FlowId) : s.flowStatusBody f =
    beBytes 1 f.val ++ beBytes 1 (FlowState.code (s.flow f).state) ++ beBytes 1 (flagBits (s.flow f).marks) ++
      beBytes 1 (drainOriginCode (s.flow f).drainOrigin) ++
      beBytes 1 (detailCode ((s.flow f).failureCause.map FailureCause.detail)) ++
      beBytes 1 (readAt s.pool.reservation f) ++ beBytes 2 (s.held f) ++
      beBytes 1 (((s.flow f).deferred.map fun d => (DeferredCode.byte d.code).toNat).getD 0) ++
      beBytes 2 (((s.flow f).deferred.map (·.tag.toNat)).getD 0) ++
      beBytes 1 (pendingBlockCode (s.flow f).pendingBlock) ++ beBytes 1 (s.flow f).attempts ++
      beBytes 2 (s.flow f).lower.toNat ++ beBytes 2 (s.flow f).next.toNat ++ beBytes 2 (s.flow f).expected.toNat ++
      beBytes 2 (s.flow f).rto ++ beBytes 2 (s.flow f).sendQueue.length ++ beBytes 1 (s.flow f).window.length ++
      beBytes 1 ((s.flow f).window.countP (·.due)) ++ beBytes 1 (s.flow f).reorder.length := by
  rw [← Flow.flags_eq]
  rfl

/-- Table 11.8: what stands at each offset of the body. -/
theorem flowStatusBody_fields (s : State) (f : FlowId) :
    let body := s.flowStatusBody f
    let fl := s.flow f
    body.length = 26 ∧
      byteAt body 0 = f.val ∧ byteAt body 1 = FlowState.code fl.state ∧ byteAt body 2 = flagBits fl.marks ∧
      byteAt body 3 = drainOriginCode fl.drainOrigin % 256 ∧
      byteAt body 4 = detailCode (fl.failureCause.map FailureCause.detail) % 256 ∧
      byteAt body 5 = readAt s.pool.reservation f % 256 ∧ field body 6 2 = s.held f % 65536 ∧
      byteAt body 8 = ((fl.deferred.map fun d => (DeferredCode.byte d.code).toNat).getD 0) % 256 ∧
      field body 9 2 = ((fl.deferred.map (·.tag.toNat)).getD 0) % 65536 ∧
      byteAt body 11 = pendingBlockCode fl.pendingBlock ∧ byteAt body 12 = fl.attempts % 256 ∧
      field body 13 2 = fl.lower.toNat ∧ field body 15 2 = fl.next.toNat ∧ field body 17 2 = fl.expected.toNat ∧
      field body 19 2 = fl.rto % 65536 ∧ field body 21 2 = fl.sendQueue.length % 65536 ∧
      byteAt body 23 = fl.window.length % 256 ∧ byteAt body 24 = fl.window.countP (·.due) % 256 ∧
      byteAt body 25 = fl.reorder.length % 256 := by
  simp [flowStatusBody_eq, byteAt, List.append_assoc, field_skip, field_beBytes_mod, field_beBytes_mod_end,
    flow_mod_byte, seq_mod_word, Nat.mod_eq_of_lt (flowStateCode_lt _), Nat.mod_eq_of_lt (Flow.flags_lt _),
    Nat.mod_eq_of_lt (pendingBlockCode_lt _)]

theorem flowStatusWork_of_body {r : Request} {f : FlowId} (h : r.body = [BitVec.ofNat 8 f.val]) (s : State) :
    flowStatusWork r s = (⟨.ok, s.flowStatusBody f⟩, s) := withFlow_of_body h s _

/-- R158: a body that is no flow's byte. -/
theorem flowStatusWork_refused {r : Request} (h : ∀ f : FlowId, r.body ≠ [BitVec.ofNat 8 f.val]) (s : State) :
    flowStatusWork r s = (.plain .badRequest, s) := by
  refine withFlow_refused (fun ⟨flow, hb, hle⟩ => h ⟨flow.toNat, by omega⟩ ?_) s _
  rw [hb, BitVec.ofNat_toNat, BitVec.setWidth_eq]

end Sys2Proof.Machine

section
open Sys2Proof Sys2Proof.Machine

/-- Settles O49: the body of Table 11.8 read back offset by offset, and the bodies that name no flow. -/
theorem flowStatusAnswers : Obligations.FlowStatusAnswers := by
  intro s r h
  refine ⟨?_, fun hb => answersOnly_of h exec_flowStatus rfl (flowStatusWork_refused hb _)⟩
  intro f hb fl
  obtain ⟨hlen, hflow, hstate, hflags, horigin, hcause, hres, hheld, hcode, htag, hpending, hattempts, hlower, hnext,
    hexpected, hrto, hsend, hwindow, hdue, hreorder⟩ := flowStatusBody_fields s f
  refine ⟨s.flowStatusBody f, answersOnly_of h exec_flowStatus rfl (flowStatusWork_of_body hb _), hlen, hflow,
    hstate, ?_, ?_, ?_, ?_, horigin.trans (drainOriginCode_eq _), hcause.trans (failureCode_eq _), hres, hheld,
    hcode.trans (deferredCode_eq _), htag.trans (deferredTag_eq _), hpending, hattempts, hlower, hnext, hexpected,
    hrto, hsend, hwindow, hdue, hreorder⟩
  all_goals rw [hflags, flagBits_testBit]
  · rfl
  · exact isRunning_iff _
  · rfl
  · rfl

end

namespace Sys2Proof.Machine

/-! ## BIND, UNBIND and the lease timer (R153 to R155) -/

/-- R156: a request whose work replaces the binding and answers OK. -/
theorem request_rebinds {s : State} {r : Request} {code : Byte} {c : Instr} {named : Byte → Bool}
    {work : Request → State → Answer × State} {b : Binding} (h : s.Takes r code)
    (hc : exec c s = s.execute named work) (hn : named code = true)
    (hw : work r (s.begin r) = (.plain .ok, (s.begin r).modifyEngine fun e => { e with binding := b })) :
    ∃ t, exec c s = .next t.finish ∧ s.Answers t r .ok [] s.engine.linkReply ∧ t.engine.binding = b ∧
      t.engine.state = .ready ∧ t.notices = s.notices ∧ s.Unchanged [.engine, .wire, .notices] t := by
  obtain ⟨t, e, hans, hb, hst, hnot, hrest⟩ := execute_effect h hc hn hw (by simp [begin_eq]) rfl rfl
  refine ⟨t, e, hans, hb, hst.trans h.ready, hnot.trans (clearMarks_unmarked h.unmarked _), ?_⟩
  refine State.Unchanged.trans (l := [.engine]) ?_ hrest fun q hq => by simp_all
  constructor <;> simp [begin_eq]

/-- R154, Table 11.4: the lease and the flags of a BIND whose body fits. -/
theorem bindWork_of_body {r : Request} {hi lo flags : Byte} (hb : r.body = [hi, lo, flags])
    (h1 : 1 ≤ hi.toNat * 256 + lo.toNat) (h600 : hi.toNat * 256 + lo.toNat ≤ 600) (hf : flags = 0 ∨ flags = 1)
    (s : State) : bindWork r s = bindWith r s (hi.toNat * 256 + lo.toNat) (flags == 1) := by
  have hle : flags.toNat < 2 := by rcases hf with rfl | rfl <;> decide
  have hforce : (flags.toNat == 1) = (flags == 1) := by rcases hf with rfl | rfl <;> rfl
  have hlen : [hi, lo, flags].length = 3 := rfl
  simp only [bindWork, hb, field_pair, byteAt_cons_zero, byteAt_cons_succ, hforce]
  exact if_pos ⟨hlen, hle, h1, h600⟩

/-- R154: a binding that is free, its source's own, or taken by force. -/
theorem bindWith_taken {r : Request} {s : State} {force : Bool}
    (h : s.boundTo r.source = true ∨ s.engine.binding = .unbound ∨ force = true) (lease : Nat) :
    bindWith r s lease force = (.plain .ok, s.bindTo r lease) := by
  unfold bindWith
  cases hb : s.engine.binding with
  | unbound => rfl
  | bound manager origin held remaining =>
    refine if_pos ?_
    simpa [State.boundTo, hb] using h

/-- R154: a binding that another address holds. -/
theorem bindWith_held {r : Request} {s : State} {manager : Address} {origin : Origin} {held remaining : Nat}
    (h : s.engine.binding = .bound manager origin held remaining) (hm : manager ≠ r.source) (lease : Nat) :
    bindWith r s lease false = (⟨.heldByOther, beBytes 6 manager.toNat⟩, s) := by
  simp [bindWith, h, hm]

theorem unbindWork_of_empty {r : Request} (h : r.body = []) (s : State) :
    unbindWork r s = (.plain .ok, s.modifyEngine fun e => { e with binding := .unbound }) :=
  bodyless_of_empty h s _

/-- R153: the lease timer's running out. -/
theorem exec_leaseTimerExpiry_over {s : State} {manager : Address} {origin : Origin} {lease : Nat}
    (h : s.engine.binding = .bound manager origin lease 0) : exec .leaseTimerExpiry s =
      .next (s.modifyEngine fun e => { e with binding := .unbound }).finish :=
  if_pos (by rw [h]; rfl)

end Sys2Proof.Machine

section
open Sys2Proof Sys2Proof.Machine

/-- Settles O51: a BIND that is taken, one that another manager forestalls and one that is refused; an UNBIND; and
the end of the lease. -/
theorem bindingChanges : Obligations.BindingChanges := by
  refine ⟨?bind, ?unbind, fun s manager origin lease h => exec_leaseTimerExpiry_over h⟩
  case bind =>
    intro s r hi lo flags h hb lease
    refine ⟨fun h1 h600 hf => ⟨fun hfree => ?taken, fun manager origin held remaining hheld hm hplain => ?held⟩,
      fun hbad => ?refused⟩
    case taken =>
      refine request_rebinds h (exec_bind s) rfl ((bindWork_of_body hb h1 h600 hf _).trans (bindWith_taken ?_ _))
      rwa [beq_iff_eq]
    case held =>
      refine answersOnly_of h exec_bind rfl ((bindWork_of_body hb h1 h600 hf _).trans ?_)
      subst hplain
      exact bindWith_held (s := s.begin r) hheld hm _
    case refused =>
      refine answersOnly_of h exec_bind rfl (bindWork_refused ?_ _)
      rintro ⟨hi', lo', flags', hb', hflags, h1, h600⟩
      obtain ⟨rfl, rfl, rfl⟩ : hi = hi' ∧ lo = lo' ∧ flags = flags' := by simpa [hb] using hb'
      omega
  case unbind =>
    intro s r h hb
    exact request_rebinds h (exec_unbind s) rfl (unbindWork_of_empty hb _)

end

namespace Sys2Proof.Machine

/-! ## SET_PARAMS (R163, Table 11.5) -/

/-- Table 11.5: every parameter of a parameter area can be written in the bytes that it has there. -/
structure Params.FitsArea (q : Params) : Prop where
  silence : q.silenceLimit < 65536
  keepalive : q.keepaliveInterval < 65536
  hold : q.holdLimit < 65536
  join : q.joinLimit < 65536
  cap : q.bulkCap < 256
  low : q.poolLow < 65536

/-- R163: the parameters with those replaced that a presence byte names. -/
def Params.replaced (p : Params) (presence : Byte) (q : Params) : Params where
  stationAddress := if presence.getLsbD 0 = true then q.stationAddress else p.stationAddress
  silenceLimit := if presence.getLsbD 1 = true then q.silenceLimit else p.silenceLimit
  keepaliveInterval := if presence.getLsbD 2 = true then q.keepaliveInterval else p.keepaliveInterval
  holdLimit := if presence.getLsbD 3 = true then q.holdLimit else p.holdLimit
  joinLimit := if presence.getLsbD 4 = true then q.joinLimit else p.joinLimit
  expectedPartner := if presence.getLsbD 5 = true then q.expectedPartner else p.expectedPartner
  bulkCap := if presence.getLsbD 6 = true then q.bulkCap else p.bulkCap
  poolLow := if presence.getLsbD 7 = true then q.poolLow else p.poolLow

/-- R163 check 1: what a presence byte names is in its range, and so is the keepalive interval that results. -/
def Params.Ranged (p : Params) (presence : Byte) (q : Params) : Prop :=
  (presence.getLsbD 0 = true → isGroup q.stationAddress = false ∧ q.stationAddress ≠ 0) ∧
    (presence.getLsbD 1 = true → 100 ≤ q.silenceLimit ∧ q.silenceLimit ≤ 5000) ∧
    (presence.getLsbD 2 = true → 50 ≤ q.keepaliveInterval ∧ q.keepaliveInterval ≤ 2000) ∧
    (presence.getLsbD 3 = true → 1 ≤ q.holdLimit ∧ q.holdLimit ≤ 600) ∧
    (presence.getLsbD 4 = true → 1 ≤ q.joinLimit ∧ q.joinLimit ≤ 600) ∧
    (presence.getLsbD 6 = true → q.bulkCap ≤ 128) ∧ (presence.getLsbD 7 = true → q.poolLow ≤ 512) ∧
    (p.replaced presence q).keepaliveInterval < (p.replaced presence q).silenceLimit

theorem hasBit_toNat (b : Byte) (k : Nat) : hasBit b.toNat k = b.getLsbD k := BitVec.testBit_toNat b

/-- Table 11.5: the fields of a parameter area, at their offsets. -/
theorem areaBytes_fields {q : Params} (h : q.FitsArea) :
    let area := q.areaBytes
    field area 0 6 = q.stationAddress.toNat ∧ field area 6 2 = q.silenceLimit ∧
      field area 8 2 = q.keepaliveInterval ∧ field area 10 2 = q.holdLimit ∧ field area 12 2 = q.joinLimit ∧
      byteAt area 14 = q.expectedPartner.isSome.toNat ∧
      field area 15 6 = (q.expectedPartner.map (·.toNat)).getD 0 ∧ byteAt area 21 = q.bulkCap ∧
      field area 22 2 = q.poolLow := by
  have hmark : bitOf q.expectedPartner.isSome 0 = q.expectedPartner.isSome.toNat := by simp [bitOf_eq]
  have hbit : q.expectedPartner.isSome.toNat < 256 := (Bool.toNat_le _).trans_lt (by decide)
  simp [Params.areaBytes, byteAt, List.append_assoc, field_skip, field_word, field_optional, field_beBytes,
    field_beBytes_end, h.silence, h.keepalive, h.hold, h.join, h.cap, h.low, hmark, hbit]

/-- Table 11.5: a parameter area reads back. -/
theorem withArea_areaBytes (p : Params) (presence : Byte) {q : Params} (h : q.FitsArea) :
    p.withArea presence.toNat q.areaBytes = p.replaced presence q := by
  obtain ⟨hstation, hsilence, hkeepalive, hhold, hjoin, hmark, hunit, hcap, hlow⟩ := areaBytes_fields h
  have hpartner : (if byteAt q.areaBytes 14 = 1 then some (BitVec.ofNat 48 (field q.areaBytes 15 6)) else none) =
      q.expectedPartner := by
    rw [hmark, hunit]
    cases q.expectedPartner <;> simp
  simp only [Params.withArea, Params.replaced, carried, hasBit_toNat, hpartner, hstation, hsilence, hkeepalive, hhold,
    hjoin, hcap, hlow, BitVec.ofNat_toNat, BitVec.setWidth_eq]

theorem partnerByte_le (q : Params) : byteAt q.areaBytes 14 ≤ 1 := by
  cases hq : q.expectedPartner <;>
    simp [Params.areaBytes, byteAt, List.append_assoc, field_skip, field_beBytes, bitOf, hq]

/-- Table 9.4: the range of a parameter binds the value that a presence bit names. -/
theorem presentIn_replaced (presence : Byte) (bit low high value current : Nat) :
    presentIn presence.toNat bit low high (if presence.getLsbD bit = true then value else current) = true ↔
      (presence.getLsbD bit = true → low ≤ value ∧ value ≤ high) := by
  rw [presentIn, hasBit_toNat]
  cases presence.getLsbD bit <;> simp

theorem station_replaced (presence : Byte) (a current : Address) :
    (!hasBit presence.toNat 0 || (!isGroup (if presence.getLsbD 0 = true then a else current) &&
        (if presence.getLsbD 0 = true then a else current) != 0)) = true ↔
      (presence.getLsbD 0 = true → isGroup a = false ∧ a ≠ 0) := by
  rw [hasBit_toNat]
  cases presence.getLsbD 0 <;> simp

/-- Log entry 18: the presence byte of an area that the bridge can form is 0 or 1. -/
theorem presentIn_partnerByte (presence : Nat) (q : Params) :
    presentIn presence 5 0 1 (byteAt q.areaBytes 14) = true := by
  simp [presentIn, partnerByte_le q]

/-- R163 check 1: the ranges bind what is present. -/
theorem replaced_inRange_iff (p : Params) (presence : Byte) (q : Params) :
    (p.replaced presence q).inRange presence.toNat q.areaBytes = true ↔ p.Ranged presence q := by
  simp only [Params.inRange, Bool.and_eq_true, decide_eq_true_iff]
  simp only [Params.Ranged, Params.replaced, presentIn_replaced, station_replaced, presentIn_partnerByte, and_true,
    Nat.zero_le, true_and, and_assoc]

/-! ### The checks in their order (R163) -/

theorem setParamsWith_outOfRange {s : State} {presence : Nat} {area : List Byte}
    (h : ¬ (s.params.withArea presence area).inRange presence area = true) :
    setParamsWith s presence area = (.plain .badRequest, s) := if_pos (by simpa using h)

theorem setParamsWith_checked {s : State} {presence : Nat} {area : List Byte} {q : Params}
    (hq : s.params.withArea presence area = q) (h : q.inRange presence area = true) :
    setParamsWith s presence area =
      if q.expectedPartner ≠ s.params.expectedPartner ∧ s.part.state ≠ .silent then (.plain .wrongState, s)
      else if hasBit presence 6 ∧ q.bulkCap < s.pool.bulkHeld then (.plain .wrongState, s)
      else (.plain .ok, { s with params := q }) := by
  subst hq
  exact if_neg (by simpa using h)

theorem setParamsWith_partner {s : State} {presence : Nat} {area : List Byte} {q : Params}
    (hq : s.params.withArea presence area = q) (h : q.inRange presence area = true)
    (hk : ¬ (q.expectedPartner = s.params.expectedPartner ∨ s.part.state = .silent)) :
    setParamsWith s presence area = (.plain .wrongState, s) :=
  (setParamsWith_checked hq h).trans (if_pos (not_or.1 hk))

theorem setParamsWith_cap {s : State} {presence : Nat} {area : List Byte} {q : Params}
    (hq : s.params.withArea presence area = q) (h : q.inRange presence area = true)
    (hk : q.expectedPartner = s.params.expectedPartner ∨ s.part.state = .silent) (h6 : hasBit presence 6 = true)
    (hlt : q.bulkCap < s.pool.bulkHeld) : setParamsWith s presence area = (.plain .wrongState, s) :=
  (setParamsWith_checked hq h).trans ((if_neg fun hno => hk.elim hno.1 hno.2).trans (if_pos ⟨h6, hlt⟩))

theorem setParamsWith_taken {s : State} {presence : Nat} {area : List Byte} {q : Params}
    (hq : s.params.withArea presence area = q) (h : q.inRange presence area = true)
    (hk : q.expectedPartner = s.params.expectedPartner ∨ s.part.state = .silent)
    (hcap : hasBit presence 6 = true → s.pool.bulkHeld ≤ q.bulkCap) :
    setParamsWith s presence area = (.plain .ok, { s with params := q }) :=
  (setParamsWith_checked hq h).trans ((if_neg fun hno => hk.elim hno.1 hno.2).trans
    (if_neg fun hno => absurd (hcap hno.1) (not_le.2 hno.2)))

/-- Table 11.4: the presence byte and the parameter area of a body. -/
theorem setParamsWork_of_body {r : Request} {presence : Byte} {q : Params} (hb : r.body = presence :: q.areaBytes)
    (s : State) : setParamsWork r s = setParamsWith s presence.toNat q.areaBytes := by
  have hlen : r.body.length = 25 := by simp [hb, Params.areaBytes]
  rw [setParamsWork, if_pos hlen, hb, byteAt_cons_zero]
  rfl

end Sys2Proof.Machine

section
open Sys2Proof Sys2Proof.Machine

/-- Settles O58: the three checks of R163 in their order, and the replacement when all pass. -/
theorem setParamsReplaces : Obligations.SetParamsReplaces := by
  intro s r presence a silence keepalive hold join low partner cap h hsilence hkeepalive hhold hjoin hcap hlow hbody p
    present q ranged partnerKept
  let area : Params := ⟨a, silence, keepalive, hold, join, partner, cap, low⟩
  have hb : r.body = presence :: area.areaBytes := by
    rw [hbody, areaBytes_eq]
    simp only [List.append_assoc]
    rfl
  have hq : (s.begin r).params.withArea presence.toNat area.areaBytes = q :=
    withArea_areaBytes p presence ⟨hsilence, hkeepalive, hhold, hjoin, hcap, hlow⟩
  have hrange : q.inRange presence.toNat area.areaBytes = true ↔ ranged := replaced_inRange_iff p presence area
  have h6 : hasBit presence.toNat 6 = true ↔ present 6 := by rw [hasBit_toNat]
  have hqcap : present 6 → q.bulkCap = cap := fun hp => if_pos hp
  have answers : ∀ {status}, setParamsWith (s.begin r) presence.toNat area.areaBytes = (.plain status, s.begin r) →
      s.answersOnly .setParams r status [] := fun e =>
    answersOnly_of h exec_setParams rfl ((setParamsWork_of_body hb _).trans e)
  refine ⟨fun hr => answers ?outOfRange, fun hr hk => answers ?partner, fun hr hk hp hlt => answers ?cap,
    fun hr hk hheld => ?taken⟩
  case outOfRange => exact setParamsWith_outOfRange (by rw [hq]; exact mt hrange.1 hr)
  case partner => exact setParamsWith_partner hq (hrange.2 hr) hk
  case cap => exact setParamsWith_cap hq (hrange.2 hr) hk (h6.2 hp) ((hqcap hp).trans_lt hlt)
  case taken =>
    have hwork := setParamsWith_taken hq (hrange.2 hr) hk fun hp =>
      (hheld (h6.1 hp)).trans_eq (hqcap (h6.1 hp)).symm
    obtain ⟨t, e, hans, hkept, hnot, hrest⟩ := request_unmarked h (exec_setParams s) rfl
      ((setParamsWork_of_body hb _).trans hwork) rfl rfl h.unmarked
    refine ⟨t, e, hans, hkept, hrest.params (by simp), hnot, ?_⟩
    refine State.Unchanged.trans (l := [.engine, .params]) ?_ hrest fun q hq => by simp_all
    constructor <;> simp [begin_eq]

end

namespace Sys2Proof.Machine

variable {s u t : State} {mark : Option RequestMark}

/-! ## Folding (R171) -/

/-- R171: a fold leaves the kind of a content and its flow, so that the same contents fold with it as before. -/
theorem fold_foldable {c q q' : NoticeContent} (h : c.fold q = some q') (x : NoticeContent) :
    (x.fold q' = none ↔ x.fold q = none) ∧ (q'.fold x = none ↔ q.fold x = none) := by
  cases c with
  | flowState f old new why =>
    cases q with
    | flowState f' old' =>
      obtain ⟨-, rfl⟩ : f = f' ∧ NoticeContent.flowState f' old' new why = q' := by simpa [NoticeContent.fold] using h
      cases x <;> simp [NoticeContent.fold]
    | _ => cases h
  | linkState =>
    cases q with
    | linkState =>
      cases h
      cases x <;> simp [NoticeContent.fold]
    | _ => cases h
  | poolLow =>
    cases q with
    | poolLow =>
      cases h
      cases x <;> simp [NoticeContent.fold]
    | _ => cases h
  | completion => cases h

theorem Notice.fold_some {n n' : Notice} {c : NoticeContent} {raised : Option RequestMark}
    (h : n.fold c raised = some n') : c.fold n.content = some n'.content ∧ n'.held = raised.or n.held := by
  obtain ⟨content, hc, rfl⟩ := Option.map_eq_some_iff.1 h
  exact ⟨hc, rfl⟩

/-- R171: one notice takes the cause, in its place. -/
theorem foldQueue_some {c : NoticeContent} {raised : Option RequestMark} {q q' : List Notice}
    (h : foldQueue c raised q = some q') :
    ∃ before n n' after, q = before ++ n :: after ∧ q' = before ++ n' :: after ∧ n.fold c raised = some n' := by
  induction q generalizing q' with
  | nil => cases h
  | cons n rest ih =>
    simp only [foldQueue] at h
    split at h
    · next n' hn =>
      cases h
      exact ⟨[], n, n', rest, rfl, rfl, hn⟩
    · obtain ⟨_, hq, rfl⟩ := Option.map_eq_some_iff.1 h
      obtain ⟨before, m, m', after, rfl, rfl, hm⟩ := ih hq
      exact ⟨n :: before, m, m', after, rfl, rfl, hm⟩

theorem foldQueue_none {c : NoticeContent} {raised : Option RequestMark} {q : List Notice}
    (h : foldQueue c raised q = none) : ∀ n ∈ q, c.fold n.content = none := by
  induction q with
  | nil => simp
  | cons n rest ih =>
    simp only [foldQueue] at h
    split at h
    · cases h
    · next hn =>
      exact List.forall_mem_cons.2 ⟨Option.map_eq_none_iff.1 hn, ih (Option.map_eq_none_iff.1 h)⟩

/-! ## The laws while a request may be in execution (R171, R173) -/

/-- R171, R173: the notice queue is folded, and neither a notice nor the engine names a request but the one in
execution. Between happenings that is none, and these are the notice laws. -/
structure NoticesSound (mark : Option RequestMark) (queue : List Notice) (executing : Option RequestMark) : Prop where
  folded : queue.Pairwise fun a b => b.content.fold a.content = none
  marked : ∀ n ∈ queue, n.held = none ∨ n.held = mark
  running : executing = none ∨ executing = mark

namespace NoticesSound

variable {q q' : List Notice} {executing : Option RequestMark} {c : NoticeContent}

/-- R171, R173: a cause that is folded. -/
theorem foldQueue (h : NoticesSound mark q executing) (hf : foldQueue c executing q = some q') :
    NoticesSound mark q' executing := by
  obtain ⟨before, n, n', after, rfl, rfl, hn⟩ := foldQueue_some hf
  obtain ⟨hc, hheld⟩ := Notice.fold_some hn
  obtain ⟨hfolded, hmarked, hrunning⟩ := h
  have hleft : ∀ x : NoticeContent, x.fold n'.content = none ↔ x.fold n.content = none := fun x =>
    (fold_foldable hc x).1
  have hright : ∀ x, n'.content.fold x = none ↔ n.content.fold x = none := fun x => (fold_foldable hc x).2
  refine ⟨?_, ?_, hrunning⟩
  · simpa only [List.pairwise_append, List.pairwise_cons, List.forall_mem_cons, hleft, hright] using hfolded
  · have hn' : n.held = none ∨ n.held = mark → n'.held = none ∨ n'.held = mark := by
      rw [hheld]
      rcases hrunning with rfl | rfl
      · exact id
      · cases executing <;> simp
    simp only [List.forall_mem_append, List.forall_mem_cons] at hmarked ⊢
    exact hmarked.imp_right (.imp_left hn')

/-- R170 step 3, R173: a cause that no queued notice takes is appended. -/
theorem append (h : NoticesSound mark q executing) (hc : ∀ n ∈ q, c.fold n.content = none) (transitions : Option Nat) :
    NoticesSound mark (q ++ [⟨c, transitions, executing⟩]) executing where
  folded := List.pairwise_append.2 ⟨h.folded, List.pairwise_singleton _ _, by simpa using hc⟩
  marked := List.forall_mem_append.2 ⟨h.marked, by simpa using h.running⟩
  running := h.running

/-- R170 to R172. -/
theorem take {n : Notices} (h : NoticesSound mark n.queue executing) (c : NoticeContent) :
    NoticesSound mark (n.take c executing).queue executing := by
  unfold Notices.take
  split
  · split
    · next hq => exact h.foldQueue hq
    · next hq =>
      split
      · exact h.append (foldQueue_none hq) _
      · exact h
  · exact h

/-- R174: notices that leave the queue. -/
theorem sublist (h : NoticesSound mark q executing) (hs : q'.Sublist q) : NoticesSound mark q' executing :=
  ⟨h.folded.sublist hs, fun n hn => h.marked n (hs.subset hn), h.running⟩

/-- R173: at the end of an execution no notice names its request. -/
theorem clearMarks {n : Notices} {m : RequestMark} (h : NoticesSound (some m) n.queue executing) :
    NoticesSound none (n.clearMarks m).queue none where
  folded := by
    refine List.pairwise_map.2 (h.folded.imp fun {a b} hab => ?_)
    split <;> split <;> exact hab
  marked := List.forall_mem_map.2 fun n hn => by
    rcases h.marked n hn with hheld | hheld <;> simp [hheld]
  running := .inl rfl

end NoticesSound

/-- The notice laws of a state while a request with a mark may be in execution. -/
def State.NoticesUnder (mark : Option RequestMark) (s : State) : Prop :=
  NoticesSound mark s.notices.queue s.engine.executing

theorem State.noticeLaws_iff : s.NoticeLaws ↔ s.NoticesUnder none :=
  ⟨fun h => ⟨h.folded, fun n hn => .inl (h.unmarked n hn), .inl h.idle⟩,
    fun h => ⟨h.folded, by simpa using h.marked, by simpa using h.running⟩⟩

namespace State.NoticesUnder

/-! ### Updates of one block -/

/-- A change beside the notice queue and the mark of the execution. -/
theorem aside (h : u.NoticesUnder mark) (hq : t.notices.queue = u.notices.queue)
    (he : t.engine.executing = u.engine.executing) : t.NoticesUnder mark := by
  rwa [NoticesUnder, hq, he]

theorem modifyFlow (h : u.NoticesUnder mark) (f : FlowId) (g : Flow → Flow) : (u.modifyFlow f g).NoticesUnder mark := h

theorem modifyPool (h : u.NoticesUnder mark) (g : Pool → Pool) : (u.modifyPool g).NoticesUnder mark := h

theorem modifyWire (h : u.NoticesUnder mark) (g : WirePort → WirePort) : (u.modifyWire g).NoticesUnder mark := h

theorem modifyLink (h : u.NoticesUnder mark) (g : LinkPort → LinkPort) : (u.modifyLink g).NoticesUnder mark := h

theorem modifyPart (h : u.NoticesUnder mark) (g : Partnership → Partnership) : (u.modifyPart g).NoticesUnder mark := h

/-- A change of the engine that neither begins nor ends an execution. -/
theorem modifyEngine (h : u.NoticesUnder mark) {g : Engine → Engine}
    (hg : (g u.engine).executing = u.engine.executing) : (u.modifyEngine g).NoticesUnder mark := h.aside rfl hg

theorem countFlow (h : u.NoticesUnder mark) (f : FlowId) (g : FlowCounters → FlowCounters) :
    (u.countFlow f g).NoticesUnder mark := h

theorem countDevice (h : u.NoticesUnder mark) (g : DeviceCounters → DeviceCounters) :
    (u.countDevice g).NoticesUnder mark := h

theorem countHit (h : u.NoticesUnder mark) (i : Fin 128) : (u.countHit i).NoticesUnder mark := h

theorem drawEpoch (h : u.NoticesUnder mark) : u.drawEpoch.NoticesUnder mark := h

/-! ### The shared operations (sections 3, 5, 8 and 10) -/

theorem raiseCause (h : u.NoticesUnder mark) (c : NoticeContent) : (u.raiseCause c).NoticesUnder mark :=
  NoticesSound.take h c

theorem complete (h : u.NoticesUnder mark) (d : Option Deferred) (o : DeferredCode → Completion × Option Detail) :
    (u.complete d o).NoticesUnder mark := by
  cases d with
  | none => exact h
  | some d => exact h.raiseCause _

theorem lowPoolTest (h : u.NoticesUnder mark) (before : Nat) : (u.lowPoolTest before).NoticesUnder mark := by
  unfold State.lowPoolTest
  simp only
  split_ifs
  · exact h
  · exact (h.modifyPool _).raiseCause _
  · exact h
  · exact h.modifyPool _
  · exact h

theorem grantFlow (h : u.NoticesUnder mark) {f : FlowId} (e : u.grantFlow f = some t) : t.NoticesUnder mark := by
  unfold State.grantFlow at e
  split at e
  · rw [← Option.some.inj e]
    exact (h.modifyPool _).lowPoolTest _
  · cases e

theorem grantBulk (h : u.NoticesUnder mark) (e : u.grantBulk = some t) : t.NoticesUnder mark := by
  unfold State.grantBulk at e
  split at e
  · rw [← Option.some.inj e]
    exact (h.modifyPool _).lowPoolTest _
  · cases e

theorem releaseFlow (h : u.NoticesUnder mark) (f : FlowId) (n : Nat) : (u.releaseFlow f n).NoticesUnder mark :=
  (h.modifyPool _).lowPoolTest _

theorem releaseBulk (h : u.NoticesUnder mark) : u.releaseBulk.NoticesUnder mark := (h.modifyPool _).lowPoolTest _

theorem releaseAccount (h : u.NoticesUnder mark) (a : Account) : (u.releaseAccount a).NoticesUnder mark := by
  cases a with
  | flow f => exact h.releaseFlow f 1
  | bulk => exact h.releaseBulk

theorem prepareOpening (h : u.NoticesUnder mark) {f : FlowId} (e : u.prepareOpening f = some t) :
    t.NoticesUnder mark := by
  obtain ⟨v, hv, rfl⟩ := Option.map_eq_some_iff.1 e
  unfold State.reserveFlow at hv
  split at hv
  · rw [← Option.some.inj hv]
    exact ((h.modifyPool _).lowPoolTest _).modifyFlow f _
  · cases hv

theorem makePending (h : u.NoticesUnder mark) (f : FlowId) (b : LifecycleBlock) :
    (u.makePending f b).NoticesUnder mark := (h.modifyFlow f _).modifyLink _

theorem clearPending (h : u.NoticesUnder mark) (f : FlowId) : (u.clearPending f).NoticesUnder mark :=
  (h.modifyFlow f _).modifyLink _

theorem eachFlow (h : u.NoticesUnder mark) {g : State → FlowId → State}
    (hg : ∀ {v : State}, v.NoticesUnder mark → ∀ f, (g v f).NoticesUnder mark) : (u.eachFlow g).NoticesUnder mark :=
  eachFlow_keeps (P := State.NoticesUnder mark) (fun _ f hv => hg hv f) h

theorem discardPending (h : u.NoticesUnder mark) : u.discardPending.NoticesUnder mark :=
  (h.eachFlow fun hv f => hv.modifyFlow f _).modifyLink _

theorem changeFlowState (h : u.NoticesUnder mark) (f : FlowId) (new : FlowState) (cause : FlowCause) :
    (u.changeFlowState f new cause).NoticesUnder mark := (h.modifyFlow f _).raiseCause _

theorem completeDeferred (h : u.NoticesUnder mark) (f : FlowId) (o : Completion) :
    (u.completeDeferred f o).NoticesUnder mark := (h.modifyFlow f _).complete _ _

/-- R51. -/
theorem endFlow (h : u.NoticesUnder mark) (f : FlowId) (new : FlowState) (cause : FlowCause)
    (failure : Option FailureCause) (keep : Bool) (o : DeferredCode → Completion × Option Detail) :
    (u.endFlow f new cause failure keep o).NoticesUnder mark := by
  have he : (u.emptyAccount f (u.flow f).collectedBuffers).NoticesUnder mark := (h.modifyPool _).lowPoolTest _
  unfold State.endFlow
  refine (complete ?_ _ _).raiseCause _
  cases keep with
  | true =>
    simp only [if_true]
    exact he.modifyFlow f _
  | false =>
    simp only [Bool.false_eq_true, if_false]
    exact (he.modifyFlow f _).clearPending f

theorem closeFlow (h : u.NoticesUnder mark) (f : FlowId) (cause : FlowCause) (keep : Bool)
    (o : DeferredCode → Completion × Option Detail) : (u.closeFlow f cause keep o).NoticesUnder mark :=
  h.endFlow f _ _ _ _ _

theorem failFlow (h : u.NoticesUnder mark) (f : FlowId) (failure : FailureCause) (keep : Bool)
    (o : DeferredCode → Completion × Option Detail) : (u.failFlow f failure keep o).NoticesUnder mark :=
  h.endFlow f _ _ _ _ _

/-- R58. -/
theorem completeDrain (h : u.NoticesUnder mark) (f : FlowId) : (u.completeDrain f).NoticesUnder mark := by
  unfold State.completeDrain
  split
  · split
    · exact ((h.makePending f _).modifyFlow f _).changeFlowState f _ _
    · exact (h.makePending f _).closeFlow f _ _ _
    · exact h
  · exact h

/-- R37, R145. -/
theorem placeClass (h : u.NoticesUnder mark) (cls : PortClass) (item : WireItem) :
    (u.placeClass cls item).NoticesUnder mark := h.modifyWire _

theorem deliver (h : u.NoticesUnder mark) (f : FlowId) (frame : Frame) : (u.deliver f frame).NoticesUnder mark :=
  (h.placeClass _ _).countFlow f _

theorem deliverAll (h : u.NoticesUnder mark) (f : FlowId) (frames : List Frame) :
    (u.deliverAll f frames).NoticesUnder mark := by
  unfold State.deliverAll
  induction frames generalizing u with
  | nil => exact h
  | cons frame rest ih => exact ih (h.deliver f frame)

/-- R140. -/
theorem present (h : u.NoticesUnder mark) (b : LinkBlock) (owner : LinkOwner) :
    (u.present b owner).NoticesUnder mark := by
  rw [State.present, restartKeepalive_eq]
  exact ((h.modifyLink _).modifyPart _).countDevice _

theorem changeLinkState (h : u.NoticesUnder mark) (new : LinkState) (cause : LinkCause) :
    (u.changeLinkState new cause).NoticesUnder mark := (h.modifyPart _).raiseCause _

theorem completeJoin (h : u.NoticesUnder mark) (o : Completion) : (u.completeJoin o).NoticesUnder mark := by
  unfold State.completeJoin
  split
  · exact h
  · exact (h.modifyPart _).raiseCause _

/-- R152. -/
theorem placeReply (h : u.NoticesUnder mark) (origin : Origin) (item : ReplyItem) :
    (u.placeReply origin item).NoticesUnder mark := by
  obtain ⟨_, _, e, -⟩ := placeReply_eq u origin item
  rw [e]
  exact h

/-- R167, R169: the queue is empty, and no request is in execution. -/
theorem applyRestart (mark : Option RequestMark) (u : State) : u.applyRestart.NoticesUnder mark :=
  ⟨.nil, by simp [State.applyRestart], .inl rfl⟩

theorem responseDeparted (h : u.NoticesUnder mark) : u.responseDeparted.NoticesUnder mark := by
  unfold State.responseDeparted
  split
  · exact (h.modifyPart _).modifyEngine rfl
  · exact applyRestart mark u

/-- R152. -/
theorem discardReplies (h : u.NoticesUnder mark) : u.discardReplies.NoticesUnder mark := by
  unfold State.discardReplies
  simp only
  split
  · exact (h.modifyEngine (by rfl)).responseDeparted
  · exact h.modifyEngine rfl

/-! ### The sender half (section 1) -/

theorem statusAtFlow (h : u.NoticesUnder mark) (f : FlowId) (a : Seq) (map : BitVec 64) (high : Option Seq) :
    (u.statusAtFlow f a map high).NoticesUnder mark := by
  cases ht : (u.flow f).takesBlocks with
  | true =>
    rw [statusAtFlow_of_traffic ht]
    split
    · exact h.countFlow f _
    · exact ((h.modifyFlow f _).releaseFlow f _).completeDrain f
  | false =>
    unfold State.statusAtFlow
    split
    · exact h
    · exact h
    · exact h.countDevice _
    all_goals next hs => simp [Flow.takesBlocks, hs] at ht

theorem sendData (h : u.NoticesUnder mark) (f : FlowId) (cls : PortClass) (epoch : Epoch) (body : BlockBody) :
    (u.sendData f cls epoch body).NoticesUnder mark := (h.present _ _).modifyLink _

/-- R20 to R22. -/
theorem serveDue (h : u.NoticesUnder mark) (f : FlowId) (cls : PortClass) (epoch : Epoch) (e : WindowEntry) :
    (u.serveDue f cls epoch e).NoticesUnder mark := by
  unfold State.serveDue
  split
  · unfold State.sendAgain
    exact ((h.modifyFlow f _).sendData f cls epoch _).countFlow f _
  · split
    · unfold State.sendSkip
      exact (((h.releaseFlow f 1).modifyFlow f _).sendData f cls epoch _).countFlow f _
    · exact (h.makePending f _).failFlow f _ _ _

theorem dataGrantAt (h : u.NoticesUnder mark) (f : FlowId) (cls : PortClass) :
    (u.dataGrantAt f cls).NoticesUnder mark := by
  unfold State.dataGrantAt
  split
  · exact h
  · split
    · unfold State.serveData
      split
      · exact h.serveDue f cls _ _
      · split
        · exact ((h.modifyFlow f _).sendData f cls _ _).countFlow f _
        · exact h
    · exact h

/-! ### The receiver half (section 2) -/

theorem advanceExpected (h : u.NoticesUnder mark) (f : FlowId) : (u.advanceExpected f).NoticesUnder mark :=
  (h.modifyFlow f _).deliverAll f _

theorem dataInOrder (h : u.NoticesUnder mark) (f : FlowId) (frame : Frame) :
    (u.dataInOrder f frame).NoticesUnder mark := by
  unfold State.dataInOrder
  split
  · exact h.countFlow f _
  · next hv => exact (((h.grantFlow hv).deliver f frame).advanceExpected f).modifyFlow f _

theorem dataEarly (h : u.NoticesUnder mark) (f : FlowId) (q : Seq) (frame : Frame) :
    (u.dataEarly f q frame).NoticesUnder mark := by
  unfold State.dataEarly
  split
  · exact h.countFlow f _
  · next hv =>
    refine (modifyFlow ?_ f _).modifyFlow f _
    split
    · exact (h.grantFlow hv).modifyFlow f _
    · exact ((h.grantFlow hv).deliver f frame).modifyFlow f _

theorem dataElsewhere (h : u.NoticesUnder mark) (f : FlowId) : (u.dataElsewhere f).NoticesUnder mark := by
  unfold State.dataElsewhere
  split
  · exact h.makePending f _
  · exact h.countDevice _
  all_goals exact h

theorem dataAtFlow (h : u.NoticesUnder mark) (f : FlowId) (q : Seq) (frame : Frame) :
    (u.dataAtFlow f q frame).NoticesUnder mark := by
  unfold State.dataAtFlow
  split
  · unfold State.sortData
    simp only
    split_ifs
    · exact h.dataInOrder f frame
    · exact (h.countFlow f _).modifyFlow f _
    · exact h.dataEarly f q frame
    · exact h.countFlow f _
    · exact (h.countFlow f _).modifyFlow f _
  · exact h.dataElsewhere f

theorem advanceAtFlow (h : u.NoticesUnder mark) (f : FlowId) (q : Seq) : (u.advanceAtFlow f q).NoticesUnder mark := by
  unfold State.advanceAtFlow
  split
  · refine modifyFlow ?_ f _
    split_ifs
    · exact h.advanceExpected f
    · exact h
    · exact h.modifyFlow f _
    · exact h.countFlow f _
    · exact h
  · exact h.dataElsewhere f

theorem statusGrantAt (h : u.NoticesUnder mark) (f : FlowId) : (u.statusGrantAt f).NoticesUnder mark := by
  unfold State.statusGrantAt
  split
  · exact h
  · split
    · exact ((h.modifyFlow f _).present _ _).modifyLink _
    · exact h

/-! ### The lifecycle (section 3) -/

theorem openAtFlow (h : u.NoticesUnder mark) (f : FlowId) (window : Nat) (order : OrderMode) :
    (u.openAtFlow f window order).NoticesUnder mark := by
  unfold State.openAtFlow
  split
  · unfold State.openAtClosed
    simp only
    split_ifs
    · exact h.makePending f _
    · exact h.makePending f _
    · split
      · exact h.makePending f _
      · next hv => exact ((h.prepareOpening hv).makePending f _).changeFlowState f _ _
  · unfold State.openCrossed
    simp only
    split
    · exact (((h.modifyFlow f _).makePending f _).changeFlowState f _ _).completeDeferred f _
    · exact h.makePending f _
  · exact h.makePending f _
  · exact h.countDevice _
  · exact h.countDevice _
  · exact h.makePending f _

theorem clearOpen (h : u.NoticesUnder mark) (f : FlowId) : (u.clearOpen f).NoticesUnder mark := by
  unfold State.clearOpen
  split
  · exact h.clearPending f
  · exact h

theorem openAckAtFlow (h : u.NoticesUnder mark) (f : FlowId) (verdict : Verdict) :
    (u.openAckAtFlow f verdict).NoticesUnder mark := by
  unfold State.openAckAtFlow
  split
  · unfold State.acceptanceAtFlow
    split
    · exact (((h.modifyFlow f _).clearOpen f).changeFlowState f _ _).completeDeferred f _
    · exact h.makePending f _
    · exact h
    all_goals exact h.countDevice _
  · unfold State.refusalAtFlow
    split
    · exact h.closeFlow f _ _ _
    all_goals exact h.countDevice _

theorem closeAtFlow (h : u.NoticesUnder mark) (f : FlowId) : (u.closeAtFlow f).NoticesUnder mark := by
  unfold State.closeAtFlow
  split
  · exact ((h.modifyFlow f _).changeFlowState f _ _).completeDrain f
  · split
    · exact ((h.modifyFlow f _).completeDeferred f _).completeDrain f
    · exact h
  · exact h.makePending f _
  · exact h.makePending f _
  all_goals exact h

theorem closeAckAtFlow (h : u.NoticesUnder mark) (f : FlowId) : (u.closeAckAtFlow f).NoticesUnder mark := by
  unfold State.closeAckAtFlow
  split
  · exact h.closeFlow f _ _ _
  · exact h

theorem abortAtFlow (h : u.NoticesUnder mark) (f : FlowId) : (u.abortAtFlow f).NoticesUnder mark := by
  unfold State.abortAtFlow
  split
  · exact h.failFlow f _ _ _
  · exact h

/-- R53, R55, R58, R59: a block taken may complete a drain. -/
theorem afterTaking (h : u.NoticesUnder mark) (f : FlowId) (b : LifecycleBlock) :
    (u.afterTaking f b).NoticesUnder mark := by
  cases b with
  | openFlow | close => exact h.modifyFlow f _
  | abort => exact h.completeDrain f
  | openAck | closeAck =>
    simp only [State.afterTaking]
    split
    · exact h.makePending f _
    · exact h.completeDrain f

theorem lifecycleGrantAt (h : u.NoticesUnder mark) (f : FlowId) : (u.lifecycleGrantAt f).NoticesUnder mark := by
  unfold State.lifecycleGrantAt
  split
  · exact h
  · split
    · exact h
    · split
      · exact h
      · exact ((h.clearPending f).present _ _).afterTaking f _

theorem lossAtFlow (h : u.NoticesUnder mark) (f : FlowId) : (u.lossAtFlow f).NoticesUnder mark := by
  unfold State.lossAtFlow
  split
  · exact h.closeFlow f _ _ _
  · exact h.modifyFlow f _
  · exact h.modifyFlow f _
  · exact h.modifyFlow f _
  all_goals exact h

theorem regainAtFlow (h : u.NoticesUnder mark) (f : FlowId) : (u.regainAtFlow f).NoticesUnder mark := by
  unfold State.regainAtFlow
  split
  · simp only
    split
    · exact (h.modifyFlow f _).makePending f _
    · exact (h.modifyFlow f _).completeDrain f
  · exact h

theorem partnershipEndAtFlow (h : u.NoticesUnder mark) (failure : FailureCause) (f : FlowId) :
    (State.partnershipEndAtFlow failure u f).NoticesUnder mark := by
  unfold State.partnershipEndAtFlow
  split
  · exact h.closeFlow f _ _ _
  · exact h.failFlow f _ _ _
  · exact h.failFlow f _ _ _
  · exact h.failFlow f _ _ _
  all_goals exact h

theorem leaveAtFlow (h : u.NoticesUnder mark) (f : FlowId) : (u.leaveAtFlow f).NoticesUnder mark := by
  unfold State.leaveAtFlow
  split
  · exact h.failFlow f _ _ _
  · exact h

theorem localLeaveAtFlow (h : u.NoticesUnder mark) (f : FlowId) : (u.localLeaveAtFlow f).NoticesUnder mark := by
  unfold State.localLeaveAtFlow
  split
  · exact h.closeFlow f _ _ _
  · exact h

theorem openTimerExpired (h : u.NoticesUnder mark) (f : FlowId) : (u.openTimerExpired f).NoticesUnder mark := by
  unfold State.openTimerExpired
  split
  · exact (h.modifyFlow f _).makePending f _
  · exact h.closeFlow f _ _ _

theorem closeSeriesExpired (h : u.NoticesUnder mark) (f : FlowId) : (u.closeSeriesExpired f).NoticesUnder mark := by
  unfold State.closeSeriesExpired
  simp only
  split
  · exact (h.modifyFlow f _).makePending f _
  · exact h.closeFlow f _ _ _

/-! ### The partnership (section 4) -/

theorem helloInJoining (h : u.NoticesUnder mark) (epoch : Epoch) (unit : Address) (seen : Option Epoch) :
    (u.helloInJoining epoch unit seen).NoticesUnder mark := by
  unfold State.helloInJoining
  simp only
  split
  · exact (((h.modifyPart _).modifyPart _).changeLinkState _ _).completeJoin _
  · exact h.modifyPart _

theorem partnerRestart (h : u.NoticesUnder mark) (epoch : Epoch) (unit : Address) (seen : Option Epoch) :
    (u.partnerRestart epoch unit seen).NoticesUnder mark :=
  ((((h.changeLinkState _ _).eachFlow fun hv f => hv.partnershipEndAtFlow _ f).discardPending).modifyPart
    _).helloInJoining _ _ _

theorem regain (h : u.NoticesUnder mark) : u.regain.NoticesUnder mark :=
  ((h.changeLinkState _ _).modifyPart _).eachFlow regainAtFlow

theorem helloAtPartnership (h : u.NoticesUnder mark) (epoch : Epoch) (unit : Address) (seen : Option Epoch) :
    (u.helloAtPartnership epoch unit seen).NoticesUnder mark := by
  unfold State.helloAtPartnership
  split
  · exact h.countDevice _
  · split_ifs
    · exact h.countDevice _
    · exact h.countDevice _
    · exact h.helloInJoining _ _ _
  · split
    · exact h.countDevice _
    · unfold State.helloInPartnered
      split
      · exact (h.modifyPart _).modifyPart _
      · exact h.partnerRestart _ _ _
  · split
    · exact h.countDevice _
    · unfold State.helloInLost
      split_ifs
      · exact h.regain
      · exact h.modifyPart _
      · exact h.partnerRestart _ _ _

theorem leaveAtPartnership (h : u.NoticesUnder mark) (epoch : Epoch) :
    (u.leaveAtPartnership epoch).NoticesUnder mark := by
  have hends := ((h.changeLinkState .silent .partnerLeft).eachFlow leaveAtFlow).discardPending
  unfold State.leaveAtPartnership
  split
  · simp only [State.partnerLeft]
    exact (hends.modifyPart _).discardReplies
  · exact h.countDevice _

theorem localLeave (h : u.NoticesUnder mark) : u.localLeave.NoticesUnder mark := by
  have hends := ((h.changeLinkState .silent .request).eachFlow localLeaveAtFlow).discardPending
  simp only [State.localLeave]
  exact ((hends.modifyPart _).completeJoin _).discardReplies

theorem partnershipGrantAt (h : u.NoticesUnder mark) : u.partnershipGrantAt.NoticesUnder mark := by
  unfold State.partnershipGrantAt
  split
  · exact (h.modifyPart _).present _ _
  · split_ifs
    · exact (h.modifyPart _).present _ _
    · exact (h.modifyPart _).present _ _
    · exact h
  · exact h

theorem joinExpired (h : u.NoticesUnder mark) : u.joinExpired.NoticesUnder mark :=
  (((h.changeLinkState _ _).modifyPart _).completeJoin _).discardReplies

theorem silenceExpired (h : u.NoticesUnder mark) : u.silenceExpired.NoticesUnder mark :=
  ((h.changeLinkState _ _).modifyPart _).eachFlow lossAtFlow

theorem holdExpired (h : u.NoticesUnder mark) : u.holdExpired.NoticesUnder mark := by
  have hends := ((h.changeLinkState .joining .holdExpired).eachFlow fun hv f =>
    hv.partnershipEndAtFlow .partnerLost f).discardPending
  simp only [State.holdExpired]
  exact hends.drawEpoch.modifyPart _

/-! ### The ports (sections 6 and 8) -/

theorem bulkPath (h : u.NoticesUnder mark) (cls : PortClass) (frame : Frame) :
    (u.bulkPath cls frame).NoticesUnder mark := by
  unfold State.bulkPath
  split
  · split
    · next hv => exact (h.grantBulk hv).modifyLink _
    · exact h.countDevice _
  · exact h.countDevice _

theorem plainAction (h : u.NoticesUnder mark) (action : PlainAction) (frame : Frame) :
    (u.plainAction action frame).NoticesUnder mark := by
  cases action with
  | discard => exact h
  | bulk cls => exact h.bulkPath cls frame

theorem acceptFrame (h : u.NoticesUnder mark) (f : FlowId) (frame : Frame) :
    (u.acceptFrame f frame).NoticesUnder mark := by
  unfold State.acceptFrame
  split
  · next hv => exact ((h.grantFlow hv).modifyFlow f _).countFlow f _
  · exact h.countFlow f _

theorem entryAction (h : u.NoticesUnder mark) (e : ClassEntry) (frame : Frame) :
    (u.entryAction e frame).NoticesUnder mark := by
  unfold State.entryAction
  split
  · exact h
  · exact h.bulkPath _ _
  · unfold State.offerFrame
    split
    · exact h.acceptFrame _ _
    · exact (h.countFlow _ _).plainAction _ _

theorem classifyFrame (h : u.NoticesUnder mark) (v : FrameView) (frame : Frame) :
    (u.classifyFrame v frame).NoticesUnder mark := by
  unfold State.classifyFrame
  split
  · exact (h.countHit _).entryAction _ _
  · exact (h.countDevice _).plainAction _ _

/-- R146. -/
theorem wireEnd (h : u.NoticesUnder mark) (owner : WireOwner) : (u.wireEnd owner).NoticesUnder mark := by
  cases owner with
  | abandoned => exact h
  | account a => exact h.releaseAccount a
  | management =>
    simp only [State.wireEnd]
    split
    · exact (h.modifyWire _).responseDeparted
    · exact h.modifyWire _

theorem wireDown (h : u.NoticesUnder mark) : u.wireDown.NoticesUnder mark := by
  unfold State.wireDown
  simp only
  split
  · exact ((h.modifyWire _).wireEnd _).modifyWire _
  · exact h.modifyWire _

/-- R113. -/
theorem bulkGrantAt (h : u.NoticesUnder mark) : u.bulkGrantAt.NoticesUnder mark := by
  unfold State.bulkGrantAt
  split
  · exact h
  · split
    · exact (h.present _ _).modifyLink _
    · split
      · exact ((h.modifyLink _).present _ _).modifyLink _
      · exact h

/-- R140, R152. -/
theorem linkEnd (h : u.NoticesUnder mark) (owner : LinkOwner) : (u.linkEnd owner).NoticesUnder mark := by
  cases owner with
  | plain => exact h
  | bulkBuffer => exact h.releaseBulk
  | restartLeave => exact applyRestart mark u
  | linkReply =>
    simp only [State.linkEnd]
    split
    · exact (h.modifyEngine (by rfl)).responseDeparted
    · exact h.modifyEngine rfl

theorem deliverBlock (h : u.NoticesUnder mark) (received : List Byte) (bad : Bool) :
    (u.deliverBlock received bad).NoticesUnder mark := by
  unfold State.deliverBlock
  split
  · exact h.countDevice _
  · split
    · exact h.countDevice _
    · exact (h.countDevice _).modifyLink _

/-! ### Intake (R149 to R151) -/

theorem answerAtIntake (h : u.NoticesUnder mark) (origin : Origin) (frame : Frame) :
    (u.answerAtIntake origin frame).NoticesUnder mark := by
  unfold State.answerAtIntake
  split
  · exact h.placeReply _ _
  · exact h.countDevice _

theorem admitRequest (h : u.NoticesUnder mark) (r : Request) : (u.admitRequest r).NoticesUnder mark := by
  unfold State.admitRequest
  split
  · exact h.answerAtIntake _ _
  · split
    · exact h.answerAtIntake _ _
    · split
      · exact h.countDevice _
      · unfold State.enqueue
        split
        · exact h.modifyEngine rfl
        · exact h.answerAtIntake _ _

theorem intake (h : u.NoticesUnder mark) (origin : Origin) (v : FrameView) : (u.intake origin v).NoticesUnder mark := by
  unfold State.intake
  split
  · exact h.countDevice _
  · split
    · exact h.countDevice _
    · exact h.admitRequest _

theorem receiveFrame (h : u.NoticesUnder mark) (received : List Byte) (bad : Bool) :
    (u.receiveFrame received bad).NoticesUnder mark := by
  unfold State.receiveFrame
  simp only
  split_ifs
  · exact h.intake _ _
  · exact h.classifyFrame _ _
  · exact h.countDevice _

/-- R114, R115. -/
theorem bulkAtPath (h : u.NoticesUnder mark) (cls : PortClass) (frame : Frame) :
    (u.bulkAtPath cls frame).NoticesUnder mark := by
  unfold State.bulkAtPath
  simp only
  split
  · exact h.intake _ _
  · split
    · next hv => exact (h.grantBulk hv).placeClass _ _
    · exact h.countDevice _

/-- R88: a block that reaches its destination, or is stale. -/
theorem ifAccepted (h : u.NoticesUnder mark) {epoch : Epoch} {d : State → State}
    (hd : ∀ {v : State}, v.NoticesUnder mark → (d v).NoticesUnder mark) : (u.ifAccepted epoch d).NoticesUnder mark := by
  unfold State.ifAccepted
  split
  · exact hd (h.modifyPart _)
  · exact h.countDevice _

/-! ### The end of a happening (R133, R174) -/

theorem releaseNotice (h : u.NoticesUnder mark) (e : u.releaseNotice = some t) : t.NoticesUnder mark := by
  obtain ⟨_, _, _, _, _, _, _, -, -, -, rfl, -⟩ := releaseNotice_some e
  exact NoticesSound.sublist h List.eraseP_sublist

theorem finish (h : u.NoticesUnder mark) : u.finish.NoticesUnder mark := by
  have hreleased : u.releaseNotices.NoticesUnder mark := 
    releaseNotices_keeps (P := State.NoticesUnder mark) (fun _ _ e hv => hv.releaseNotice e) h
  unfold State.finish State.select
  split
  · exact hreleased.modifyLink _
  · exact hreleased

/-! ### The execution of requests (R156, R173) -/

/-- R173: between happenings no notice is marked, and a request taken gives its own mark only. -/
theorem begin (h : u.NoticesUnder none) (r : Request) : (u.begin r).NoticesUnder (some ⟨r.source, r.tag⟩) where
  folded := h.folded
  marked n hn := .inl ((or_self_iff ..).1 (h.marked n hn))
  running := .inr rfl

/-- R173: the response enters its path, and then the marks of its request are cleared. -/
theorem respond {r : Request} (h : u.NoticesUnder (some ⟨r.source, r.tag⟩)) (response : ReplyItem) :
    (u.respond r response).NoticesUnder none :=
  NoticesSound.clearMarks (h.placeReply r.origin response)

theorem executeRequest {r : Request} {work : Request → State → Answer × State}
    (h : u.NoticesUnder (some ⟨r.source, r.tag⟩)) (hw : (work r u).2.NoticesUnder (some ⟨r.source, r.tag⟩)) :
    (u.executeRequest r work).NoticesUnder none := by
  unfold State.executeRequest
  split
  · exact h.respond _
  · exact (hw.modifyEngine (by rfl)).respond _

/-! ### What each request does (sections 7, 9 and 10) -/

theorem bodyless {work : Answer × State} (h : u.NoticesUnder mark) (r : Request) (hw : work.2.NoticesUnder mark) :
    (Machine.bodyless r u work).2.NoticesUnder mark := by
  unfold Machine.bodyless
  split
  · exact hw
  · exact h

theorem withFlow {work : FlowId → Answer × State} (h : u.NoticesUnder mark) (r : Request)
    (hw : ∀ f, (work f).2.NoticesUnder mark) : (Machine.withFlow r u work).2.NoticesUnder mark := by
  unfold Machine.withFlow
  split
  · exact h
  · exact hw _

theorem bindWork (h : u.NoticesUnder mark) (r : Request) : (Machine.bindWork r u).2.NoticesUnder mark := by
  have hbind : ∀ lease, (u.bindTo r lease).NoticesUnder mark := fun _ => h.modifyEngine rfl
  unfold Machine.bindWork bindWith
  simp only
  split
  · split
    · exact hbind _
    · split
      · exact hbind _
      · exact h
  · exact h

theorem readTableWork (h : u.NoticesUnder mark) (r : Request) : (Machine.readTableWork r u).2.NoticesUnder mark := by
  unfold Machine.readTableWork
  simp only
  split
  · split <;> exact h
  · exact h

theorem writeTableWork (h : u.NoticesUnder mark) (r : Request) : (Machine.writeTableWork r u).2.NoticesUnder mark := by
  unfold Machine.writeTableWork
  simp only
  split
  · split
    · unfold writeShadow
      split
      · exact h
      · exact h.aside rfl rfl
    · exact h
  · exact h

theorem commitWork (h : u.NoticesUnder mark) (r : Request) : (Machine.commitWork r u).2.NoticesUnder mark := by
  unfold Machine.commitWork commitBank
  split
  · split
    · exact h
    · split
      · exact h
      · split
        · exact h
        · exact h.aside rfl rfl
  · exact h

/-- R52. -/
theorem flowOpenAt (h : u.NoticesUnder mark) (f : FlowId) (tag : Tag) :
    (Machine.flowOpenAt u f tag).2.NoticesUnder mark := by
  unfold Machine.flowOpenAt
  split_ifs
  · exact h
  · exact h
  · exact h
  · exact h
  · split
    · exact h
    · next hv => exact (((h.prepareOpening hv).makePending f _).modifyFlow f _).changeFlowState f _ _

/-- R57. -/
theorem flowCloseAt (h : u.NoticesUnder mark) (f : FlowId) (tag : Tag) :
    (Machine.flowCloseAt u f tag).2.NoticesUnder mark := by
  unfold Machine.flowCloseAt
  split
  · exact ((h.modifyFlow f _).changeFlowState f _ _).completeDrain f
  all_goals exact h

/-- R62. -/
theorem flowAbortAt (h : u.NoticesUnder mark) (f : FlowId) : (Machine.flowAbortAt u f).2.NoticesUnder mark := by
  unfold Machine.flowAbortAt State.abortFlow
  simp only
  split_ifs
  · exact (h.makePending f _).closeFlow f _ _ _
  · exact h.closeFlow f _ _ _
  · exact h

/-- R64. -/
theorem flowResetAt (h : u.NoticesUnder mark) (f : FlowId) : (Machine.flowResetAt u f).2.NoticesUnder mark := by
  unfold Machine.flowResetAt
  split
  · exact h.closeFlow f _ _ _
  · exact h

/-- R73. -/
theorem joinAt (h : u.NoticesUnder mark) (tag : Tag) : (Machine.joinAt u tag).2.NoticesUnder mark := by
  unfold Machine.joinAt
  split
  · exact (h.drawEpoch.modifyPart _).changeLinkState _ _
  all_goals exact h

theorem linkLeaveWork (h : u.NoticesUnder mark) (r : Request) : (Machine.linkLeaveWork r u).2.NoticesUnder mark := by
  refine h.bodyless r ?_
  simp only
  split
  · exact h
  · exact h.localLeave

theorem readCountersWork (h : u.NoticesUnder mark) (r : Request) :
    (Machine.readCountersWork r u).2.NoticesUnder mark := by
  unfold Machine.readCountersWork
  simp only
  split
  · split
    · unfold readDeviceCounters
      simp only
      split
      · exact h.aside rfl rfl
      · exact h
    · split
      · unfold readFlowCounters
        simp only
        split
        · exact h.countFlow _ _
        · exact h
      · exact h
    · exact h
  · exact h

theorem setParamsWork (h : u.NoticesUnder mark) (r : Request) : (Machine.setParamsWork r u).2.NoticesUnder mark := by
  unfold Machine.setParamsWork
  split
  · rcases setParamsWith_params u (byteAt r.body 0) (r.body.drop 1) with e | ⟨-, e⟩ <;> rw [e]
    · exact h
    · exact h.aside rfl rfl
  · exact h

/-- R175: the mask changes, and the queued notices do not. -/
theorem setNoticesWork (h : u.NoticesUnder mark) (r : Request) : (Machine.setNoticesWork r u).2.NoticesUnder mark := by
  unfold Machine.setNoticesWork
  simp only
  split
  · exact h.aside rfl rfl
  · exact h

/-- R165, R166. -/
theorem executeRestart {r : Request} (h : u.NoticesUnder (some ⟨r.source, r.tag⟩)) :
    (u.executeRestart r).NoticesUnder none := by
  have hdone : (u.executeRequest r restartWork).NoticesUnder none :=
    h.executeRequest (h.bodyless r (h.modifyEngine rfl))
  unfold State.executeRestart
  simp only
  split
  · exact hdone.responseDeparted
  · exact hdone

end State.NoticesUnder

/-! ## Every command keeps the notice laws -/

/-- The notice laws hold of the state after an outcome. -/
def NoticesKept (o : Host.Outcome State Fault Refusal) : Prop := ∀ t, o = .next t → t.NoticesUnder none

namespace State.NoticesUnder

theorem same (h : u.NoticesUnder none) : NoticesKept (.next u) := fun _ e => by
  cases e
  exact h

theorem finished (h : u.NoticesUnder none) : NoticesKept (.next u.finish) := h.finish.same

/-- A happening that has an effect under a condition only. -/
theorem finished_ite (hs : s.NoticesUnder none) {p : Prop} [Decidable p] (h : u.NoticesUnder none) :
    NoticesKept (if p then .next u.finish else .next s) := by
  split
  · exact h.finished
  · exact hs.same

/-- R88: a block routed to the flows. -/
theorem flowBlock (h : s.NoticesUnder none) {epoch : Epoch} {d : State → State}
    (hd : ∀ {v : State}, v.NoticesUnder none → (d v).NoticesUnder none) :
    NoticesKept (.next (s.dropFlowBlock.ifAccepted epoch d).finish) :=
  have hdrop : s.dropFlowBlock.NoticesUnder none := h.modifyLink _
  (hdrop.ifAccepted hd).finished

/-- R156, R173. -/
theorem request (h : s.NoticesUnder none) {c : Instr} {named : Byte → Bool} {work : Request → State → Answer × State}
    (hexec : exec c s = s.execute named work)
    (hw : ∀ {mark : Option RequestMark} {v : State}, v.NoticesUnder mark → ∀ r, (work r v).2.NoticesUnder mark) :
    NoticesKept (exec c s) := by
  rw [hexec]
  unfold State.execute
  split
  · exact h.same
  · next r _ =>
    split
    · exact ((h.begin r).executeRequest (hw (h.begin r) r)).finished
    · exact h.same

theorem restart (h : s.NoticesUnder none) : NoticesKept (execRestart s) := by
  unfold execRestart
  split
  · exact h.same
  · next r _ =>
    split
    · exact (h.begin r).executeRestart.finished
    · exact h.same

end State.NoticesUnder

/-- R48, R169. -/
theorem powerOn_noticesUnder (unit : Address) (draws : Nat) (pending : List Instr) :
    (State.powerOn unit draws pending).NoticesUnder none := ⟨.nil, fun _ hn => (List.not_mem_nil hn).elim, .inl rfl⟩

theorem exec_noticesKept (c : Instr) (h : s.NoticesUnder none) : NoticesKept (exec c s) := by
  have hgrant : (s.modifyLink fun l => { l with grant := none }).NoticesUnder none := h.modifyLink _
  cases c with
  | powerOnReset => exact (powerOn_noticesUnder ..).same
  | wireFrameReception received bad => exact (h.receiveFrame received bad).finished
  | linkBlockDelivery received bad => exact (h.deliverBlock received bad).finished
  | slotSignalled => exact (h.modifyLink _).finished
  | slotWithdrawn => exact (h.modifyLink _).finished
  | wiredLinkUp => exact (h.modifyWire _).finished
  | wiredLinkDown => exact h.wireDown.finished
  | helloReceived =>
    simp only [exec, execHelloReceived]
    split
    · exact ((h.modifyLink _).helloAtPartnership _ _ _).finished
    · exact h.same
  | keepaliveReceived =>
    simp only [exec, execKeepaliveReceived]
    split
    · exact ((h.modifyLink _).ifAccepted id).finished
    · exact h.same
  | leaveReceived =>
    simp only [exec, execLeaveReceived]
    split
    · exact ((h.modifyLink _).leaveAtPartnership _).finished
    · exact h.same
  | openReceived =>
    simp only [exec, execOpenReceived]
    split
    · exact h.flowBlock fun hv => hv.openAtFlow _ _ _
    · exact h.same
  | openAckReceived =>
    simp only [exec, execOpenAckReceived]
    split
    · exact h.flowBlock fun hv => hv.openAckAtFlow _ _
    · exact h.same
  | closeReceived =>
    simp only [exec, execCloseReceived]
    split
    · exact h.flowBlock fun hv => hv.closeAtFlow _
    · exact h.same
  | closeAckReceived =>
    simp only [exec, execCloseAckReceived]
    split
    · exact h.flowBlock fun hv => hv.closeAckAtFlow _
    · exact h.same
  | abortReceived =>
    simp only [exec, execAbortReceived]
    split
    · exact h.flowBlock fun hv => hv.abortAtFlow _
    · exact h.same
  | dataReceived =>
    simp only [exec, execDataReceived]
    split
    · exact h.flowBlock fun hv => hv.dataAtFlow _ _ _
    · exact h.same
  | advanceReceived =>
    simp only [exec, execAdvanceReceived]
    split
    · exact h.flowBlock fun hv => hv.advanceAtFlow _ _
    · exact h.same
  | statusReceived =>
    simp only [exec, execStatusReceived]
    split
    · exact h.flowBlock fun hv => hv.statusAtFlow _ _ _ _
    · exact h.same
  | bulkReceived =>
    simp only [exec, execBulkReceived]
    split
    · exact ((h.modifyLink _).ifAccepted fun hv => hv.bulkAtPath _ _).finished
    · exact h.same
  | dataGrant =>
    simp only [exec, execDataGrant]
    split
    · exact (hgrant.dataGrantAt _ _).finished
    · exact h.same
  | statusGrant =>
    simp only [exec, execStatusGrant]
    split
    · exact (hgrant.statusGrantAt _).finished
    · exact h.same
  | lifecycleGrant =>
    simp only [exec, execLifecycleGrant]
    split
    · exact (hgrant.lifecycleGrantAt _).finished
    · exact h.same
  | partnershipGrant =>
    simp only [exec, execPartnershipGrant]
    split
    · exact hgrant.partnershipGrantAt.finished
    · exact h.same
  | bulkGrant =>
    simp only [exec, execBulkGrant]
    split
    · exact hgrant.bulkGrantAt.finished
    · exact h.same
  | linkTransmissionEnd =>
    simp only [exec, execLinkTransmissionEnd]
    split
    · exact ((h.modifyLink _).linkEnd _).finished
    all_goals exact h.same
  | wireTransmissionEnd =>
    simp only [exec, execWireTransmissionEnd]
    split
    · exact ((h.wireEnd _).modifyWire _).finished
    · exact h.same
  | retransmissionTimerExpiry f => exact h.finished_ite (h.modifyFlow f _)
  | closeSeriesExpiry f => exact h.finished_ite (h.closeSeriesExpired f)
  | openTimerExpiry f => exact h.finished_ite (h.openTimerExpired f)
  | ackDelayTimerExpiry f => exact h.finished_ite (h.modifyFlow f _)
  | joinTimerExpiry => exact h.finished_ite h.joinExpired
  | helloTimerExpiry => exact h.finished_ite (h.modifyPart _)
  | silenceTimerExpiry => exact h.finished_ite h.silenceExpired
  | keepaliveTimerExpiry => exact h.finished_ite (h.modifyPart _)
  | holdTimerExpiry => exact h.finished_ite h.holdExpired
  | leaseTimerExpiry => exact h.finished_ite (h.modifyEngine rfl)
  | restart => exact h.restart
  | identify => exact h.request (exec_identify s) fun hv r => hv.bodyless r hv
  | linkStatus => exact h.request (exec_linkStatus s) fun hv r => hv.bodyless r hv
  | readParams => exact h.request (exec_readParams s) fun hv r => hv.bodyless r hv
  | bind => exact h.request (exec_bind s) fun hv => hv.bindWork
  | unbind => exact h.request (exec_unbind s) fun hv r => hv.bodyless r (hv.modifyEngine rfl)
  | readTable => exact h.request (exec_readTable s) fun hv => hv.readTableWork
  | writeTable => exact h.request (exec_writeTable s) fun hv => hv.writeTableWork
  | copyBank => exact h.request (exec_copyBank s) fun hv r => hv.bodyless r (hv.aside rfl rfl)
  | commit => exact h.request (exec_commit s) fun hv => hv.commitWork
  | flowOpen => exact h.request (exec_flowOpen s) fun hv r => hv.withFlow r fun f => hv.flowOpenAt f _
  | flowClose => exact h.request (exec_flowClose s) fun hv r => hv.withFlow r fun f => hv.flowCloseAt f _
  | flowAbort => exact h.request (exec_flowAbort s) fun hv r => hv.withFlow r hv.flowAbortAt
  | flowReset => exact h.request (exec_flowReset s) fun hv r => hv.withFlow r hv.flowResetAt
  | flowStatus => exact h.request (exec_flowStatus s) fun hv r => hv.withFlow r fun _ => hv
  | linkJoin => exact h.request (exec_linkJoin s) fun hv r => hv.bodyless r (hv.joinAt _)
  | linkLeave => exact h.request (exec_linkLeave s) fun hv => hv.linkLeaveWork
  | readCounters => exact h.request (exec_readCounters s) fun hv => hv.readCountersWork
  | setParams => exact h.request (exec_setParams s) fun hv => hv.setParamsWork
  | setNotices => exact h.request (exec_setNotices s) fun hv => hv.setNoticesWork
  | unknownRequest => exact h.request (exec_unknownRequest s) fun hv _ => hv

theorem step_noticesKept (h : s.NoticesUnder none) : NoticesKept (step s) := by
  unfold step
  split
  · exact (h.aside (t := s.tick) rfl rfl).same
  · next c rest _ => exact exec_noticesKept c (h.aside (t := s.withPending rest) rfl rfl)

end Sys2Proof.Machine

section
open Sys2Proof Sys2Proof.Machine

/-- Settles O13: each command, and the passage of time, keeps the notice queue folded, and a request's marks end with
its execution. -/
theorem noticeLawsKept : Obligations.NoticeLawsKept := fun _ t h e =>
  State.noticeLaws_iff.2 (step_noticesKept (State.noticeLaws_iff.1 h) t e)

end

namespace Sys2Proof.Machine

/-! ## The waiting commands: no rule of the manual reads or changes them (log entry 8) -/

/-! ### The shared operations -/

@[simp] theorem raiseCause_pending (s : State) (c : NoticeContent) : (s.raiseCause c).pending = s.pending := rfl

@[simp] theorem complete_pending (s : State) (d : Option Deferred)
    (o : DeferredCode → Completion × Option Detail) : (s.complete d o).pending = s.pending := by
  cases d <;> rfl

@[simp] theorem releaseFlow_pending (s : State) (f : FlowId) (k : Nat) :
    (s.releaseFlow f k).pending = s.pending := by
  obtain ⟨_, _, e⟩ := releaseFlow_eq s f k
  rw [e]

@[simp] theorem releaseBulk_pending (s : State) : s.releaseBulk.pending = s.pending := by
  obtain ⟨_, _, e⟩ := releaseBulk_eq s
  rw [e]

@[simp] theorem releaseAccount_pending (s : State) (a : Account) : (s.releaseAccount a).pending = s.pending := by
  cases a <;> simp [State.releaseAccount]

theorem grantFlow_pending {s t : State} {f : FlowId} (h : s.grantFlow f = some t) : t.pending = s.pending := by
  obtain ⟨-, _, _, rfl⟩ := grantFlow_some h
  rfl

theorem grantBulk_pending {s t : State} (h : s.grantBulk = some t) : t.pending = s.pending := by
  obtain ⟨-, _, _, rfl⟩ := grantBulk_some h
  rfl

theorem prepareOpening_pending {s t : State} {f : FlowId} (h : s.prepareOpening f = some t) :
    t.pending = s.pending := by
  obtain ⟨u, hu, rfl⟩ := Option.map_eq_some_iff.1 h
  obtain ⟨-, _, _, rfl⟩ := reserveFlow_some hu
  rfl

@[simp] theorem makePending_pending (s : State) (f : FlowId) (b : LifecycleBlock) :
    (s.makePending f b).pending = s.pending := rfl

@[simp] theorem clearPending_pending (s : State) (f : FlowId) : (s.clearPending f).pending = s.pending := rfl

@[simp] theorem makeOpenPending_pending (s : State) (f : FlowId) : (s.makeOpenPending f).pending = s.pending := rfl

@[simp] theorem changeFlowState_pending (s : State) (f : FlowId) (new : FlowState) (cause : FlowCause) :
    (s.changeFlowState f new cause).pending = s.pending := rfl

@[simp] theorem endFlow_pending (s : State) (f : FlowId) (new : FlowState) (cause : FlowCause)
    (failure : Option FailureCause) (keep : Bool) (o : DeferredCode → Completion × Option Detail) :
    (s.endFlow f new cause failure keep o).pending = s.pending := by
  obtain ⟨_, _, e⟩ := endFlow_eq s f new cause failure keep o
  rw [e]

@[simp] theorem closeFlow_pending (s : State) (f : FlowId) (cause : FlowCause) (keep : Bool)
    (o : DeferredCode → Completion × Option Detail) : (s.closeFlow f cause keep o).pending = s.pending :=
  endFlow_pending s f _ _ _ _ _

@[simp] theorem failFlow_pending (s : State) (f : FlowId) (failure : FailureCause) (keep : Bool)
    (o : DeferredCode → Completion × Option Detail) : (s.failFlow f failure keep o).pending = s.pending :=
  endFlow_pending s f _ _ _ _ _

@[simp] theorem completeDrain_pending (s : State) (f : FlowId) : (s.completeDrain f).pending = s.pending := by
  unfold State.completeDrain
  split
  · split <;> simp
  · rfl

/-- (Where an event at every flow stands inside another operation, the proofs below rewrite rather than simp, which
would leave the kernel to unfold the 64 flows.) -/
theorem eachFlow_pending {g : State → FlowId → State} (h : ∀ u f, (g u f).pending = u.pending) (s : State) :
    (s.eachFlow g).pending = s.pending := eachFlow_same State.pending h s

@[simp] theorem discardPending_pending (s : State) : s.discardPending.pending = s.pending := by
  rw [State.discardPending, modifyLink_pending, eachFlow_pending fun _ _ => modifyFlow_pending _ _ _]

@[simp] theorem deliverAll_pending (s : State) (f : FlowId) (frames : List Frame) :
    (s.deliverAll f frames).pending = s.pending := by
  rw [deliverAll_eq]

@[simp] theorem placeReply_pending (s : State) (origin : Origin) (item : ReplyItem) :
    (s.placeReply origin item).pending = s.pending := by
  obtain ⟨_, _, e, -⟩ := placeReply_eq s origin item
  rw [e]

@[simp] theorem finish_pending (s : State) : s.finish.pending = s.pending := by
  obtain ⟨_, _, _, _, e⟩ := finish_eq s
  rw [e]

@[simp] theorem present_pending (s : State) (b : LinkBlock) (owner : LinkOwner) :
    (s.present b owner).pending = s.pending := by
  rw [present_eq]

@[simp] theorem completeJoin_pending (s : State) (o : Completion) : (s.completeJoin o).pending = s.pending := by
  obtain ⟨_, e⟩ := completeJoin_eq s o
  rw [e]

@[simp] theorem responseDeparted_pending (s : State) : s.responseDeparted.pending = s.pending := by
  unfold State.responseDeparted
  split <;> simp [State.applyRestart]

@[simp] theorem discardReplies_pending (s : State) : s.discardReplies.pending = s.pending := by
  unfold State.discardReplies
  simp only
  split <;> simp

/-! ### What reaches a flow (sections 1 to 3) -/

@[simp] theorem statusAtFlow_pending (s : State) (f : FlowId) (a : Seq) (map : BitVec 64) (high : Option Seq) :
    (s.statusAtFlow f a map high).pending = s.pending := by
  unfold State.statusAtFlow
  split
  case h_1 | h_2 | h_3 => rfl
  all_goals
    simp only
    split <;> simp

@[simp] theorem serveData_pending (s : State) (f : FlowId) (cls : PortClass) (epoch : Epoch) :
    (s.serveData f cls epoch).pending = s.pending := by
  unfold State.serveData State.serveDue
  split
  · split
    · simp [State.sendAgain, State.sendData]
    · split <;> simp [State.sendSkip, State.sendData, State.exhaust]
  · split <;> simp [State.sendNew, State.sendData]

@[simp] theorem dataGrantAt_pending (s : State) (f : FlowId) (cls : PortClass) :
    (s.dataGrantAt f cls).pending = s.pending := by
  unfold State.dataGrantAt
  split
  · rfl
  · split <;> simp

@[simp] theorem statusGrantAt_pending (s : State) (f : FlowId) : (s.statusGrantAt f).pending = s.pending := by
  unfold State.statusGrantAt
  split
  · rfl
  · split <;> simp

@[simp] theorem advanceExpected_pending (s : State) (f : FlowId) : (s.advanceExpected f).pending = s.pending := by
  simp [State.advanceExpected]

@[simp] theorem dataElsewhere_pending (s : State) (f : FlowId) : (s.dataElsewhere f).pending = s.pending := by
  unfold State.dataElsewhere
  split <;> rfl

@[simp] theorem dataInOrder_pending (s : State) (f : FlowId) (frame : Frame) :
    (s.dataInOrder f frame).pending = s.pending := by
  unfold State.dataInOrder
  split
  · rfl
  · next hu => simp [State.acceptData, State.deliver, State.placeClass, grantFlow_pending hu]

@[simp] theorem dataEarly_pending (s : State) (f : FlowId) (q : Seq) (frame : Frame) :
    (s.dataEarly f q frame).pending = s.pending := by
  unfold State.dataEarly
  split
  · rfl
  · next hu =>
    simp only
    split <;> simp [State.setStatusPending, State.acceptData, State.insertMember, State.deliver, State.placeClass,
      grantFlow_pending hu]

@[simp] theorem dataAtFlow_pending (s : State) (f : FlowId) (q : Seq) (frame : Frame) :
    (s.dataAtFlow f q frame).pending = s.pending := by
  unfold State.dataAtFlow
  split
  · unfold State.sortData
    simp only
    split_ifs <;> simp [State.dataDuplicate, State.setStatusPending, State.countOutOfWindow]
  · simp

@[simp] theorem advanceAtFlow_pending (s : State) (f : FlowId) (q : Seq) :
    (s.advanceAtFlow f q).pending = s.pending := by
  unfold State.advanceAtFlow
  split
  · unfold State.sortAdvance
    simp only
    split_ifs <;> simp [State.insertMember, State.setStatusPending, State.countOutOfWindow]
  · simp

@[simp] theorem completeDeferred_pending (s : State) (f : FlowId) (o : Completion) :
    (s.completeDeferred f o).pending = s.pending := by
  simp [State.completeDeferred]

@[simp] theorem openAtClosed_pending (s : State) (f : FlowId) (window : Nat) (order : OrderMode) :
    (s.openAtClosed f window order).pending = s.pending := by
  unfold State.openAtClosed
  simp only
  split_ifs
  · rfl
  · rfl
  · split
    · rfl
    · next hu => simp [prepareOpening_pending hu]

@[simp] theorem openAtFlow_pending (s : State) (f : FlowId) (window : Nat) (order : OrderMode) :
    (s.openAtFlow f window order).pending = s.pending := by
  unfold State.openAtFlow
  split
  case h_1 => simp
  case h_2 =>
    unfold State.openCrossed
    simp only
    split <;> simp
  all_goals rfl

@[simp] theorem openAckAtFlow_pending (s : State) (f : FlowId) (verdict : Verdict) :
    (s.openAckAtFlow f verdict).pending = s.pending := by
  have hclear : ∀ u : State, (u.clearOpen f).pending = u.pending := fun u => by
    unfold State.clearOpen
    split <;> rfl
  unfold State.openAckAtFlow
  split
  · unfold State.acceptanceAtFlow
    split <;> simp [hclear, State.countStale]
  · unfold State.refusalAtFlow
    split <;> simp [State.countStale]

@[simp] theorem closeAtFlow_pending (s : State) (f : FlowId) : (s.closeAtFlow f).pending = s.pending := by
  unfold State.closeAtFlow
  split
  case h_1 => simp
  case h_2 => split <;> simp
  all_goals rfl

@[simp] theorem closeAckAtFlow_pending (s : State) (f : FlowId) : (s.closeAckAtFlow f).pending = s.pending := by
  unfold State.closeAckAtFlow
  split <;> simp

@[simp] theorem abortAtFlow_pending (s : State) (f : FlowId) : (s.abortAtFlow f).pending = s.pending := by
  unfold State.abortAtFlow
  split <;> simp

@[simp] theorem afterTaking_pending (s : State) (f : FlowId) (b : LifecycleBlock) :
    (s.afterTaking f b).pending = s.pending := by
  cases b with
  | openFlow | close => rfl
  | openAck | closeAck =>
    simp only [State.afterTaking]
    split <;> simp
  | abort => simp [State.afterTaking]

@[simp] theorem lifecycleGrantAt_pending (s : State) (f : FlowId) : (s.lifecycleGrantAt f).pending = s.pending := by
  unfold State.lifecycleGrantAt
  split
  · rfl
  · split
    · rfl
    · split <;> simp

@[simp] theorem openTimerExpired_pending (s : State) (f : FlowId) : (s.openTimerExpired f).pending = s.pending := by
  unfold State.openTimerExpired
  split <;> simp

@[simp] theorem closeSeriesExpired_pending (s : State) (f : FlowId) :
    (s.closeSeriesExpired f).pending = s.pending := by
  unfold State.closeSeriesExpired
  simp only
  split <;> simp

/-! ### What reaches the partnership, and each flow with it (sections 3.7 and 4) -/

@[simp] theorem lossAtFlow_pending (s : State) (f : FlowId) : (s.lossAtFlow f).pending = s.pending := by
  unfold State.lossAtFlow
  split <;> simp

@[simp] theorem regainAtFlow_pending (s : State) (f : FlowId) : (s.regainAtFlow f).pending = s.pending := by
  unfold State.regainAtFlow
  simp only
  split_ifs <;> simp

@[simp] theorem partnershipEndAtFlow_pending (failure : FailureCause) (s : State) (f : FlowId) :
    (s.partnershipEndAtFlow failure f).pending = s.pending := by
  unfold State.partnershipEndAtFlow
  split <;> simp

@[simp] theorem leaveAtFlow_pending (s : State) (f : FlowId) : (s.leaveAtFlow f).pending = s.pending := by
  unfold State.leaveAtFlow
  split <;> simp

@[simp] theorem localLeaveAtFlow_pending (s : State) (f : FlowId) : (s.localLeaveAtFlow f).pending = s.pending := by
  unfold State.localLeaveAtFlow
  split <;> simp

@[simp] theorem changeLinkState_pending (s : State) (new : LinkState) (cause : LinkCause) :
    (s.changeLinkState new cause).pending = s.pending := rfl

@[simp] theorem ifAccepted_pending (s : State) (epoch : Epoch) {d : State → State}
    (h : ∀ u, (d u).pending = u.pending) : (s.ifAccepted epoch d).pending = s.pending := by
  unfold State.ifAccepted
  split
  · rw [h]; rfl
  · rfl

@[simp] theorem helloInJoining_pending (s : State) (epoch : Epoch) (unit : Address) (seen : Option Epoch) :
    (s.helloInJoining epoch unit seen).pending = s.pending := by
  unfold State.helloInJoining
  simp only
  split <;> simp [State.handshake]

@[simp] theorem partnerRestart_pending (s : State) (epoch : Epoch) (unit : Address) (seen : Option Epoch) :
    (s.partnerRestart epoch unit seen).pending = s.pending := by
  rw [State.partnerRestart, helloInJoining_pending, modifyPart_pending, discardPending_pending,
    eachFlow_pending (partnershipEndAtFlow_pending _), changeLinkState_pending]

@[simp] theorem regain_pending (s : State) : s.regain.pending = s.pending := by
  simp [State.regain, eachFlow_pending]

@[simp] theorem helloAtPartnership_pending (s : State) (epoch : Epoch) (unit : Address) (seen : Option Epoch) :
    (s.helloAtPartnership epoch unit seen).pending = s.pending := by
  unfold State.helloAtPartnership
  split
  case h_1 => rfl
  case h_2 => split_ifs <;> simp [State.countForeign]
  case h_3 =>
    unfold State.helloInPartnered
    split_ifs <;> simp [State.countForeign, State.restartSilence]
  case h_4 =>
    unfold State.helloInLost
    split_ifs <;> simp [State.countForeign]

@[simp] theorem leaveAtPartnership_pending (s : State) (epoch : Epoch) :
    (s.leaveAtPartnership epoch).pending = s.pending := by
  unfold State.leaveAtPartnership
  split
  · rw [State.partnerLeft, discardReplies_pending, modifyPart_pending, discardPending_pending,
      eachFlow_pending leaveAtFlow_pending, changeLinkState_pending]
  · rfl

@[simp] theorem localLeave_pending (s : State) : s.localLeave.pending = s.pending := by
  rw [State.localLeave, discardReplies_pending, completeJoin_pending, modifyPart_pending, discardPending_pending,
    eachFlow_pending localLeaveAtFlow_pending, changeLinkState_pending]

@[simp] theorem partnershipGrantAt_pending (s : State) : s.partnershipGrantAt.pending = s.pending := by
  unfold State.partnershipGrantAt
  split
  · simp [State.sendLeave]
  · split_ifs <;> simp [State.sendHello, State.sendKeepalive]
  · rfl

@[simp] theorem joinExpired_pending (s : State) : s.joinExpired.pending = s.pending := by
  simp [State.joinExpired]

@[simp] theorem silenceExpired_pending (s : State) : s.silenceExpired.pending = s.pending := by
  simp [State.silenceExpired, eachFlow_pending]

@[simp] theorem holdExpired_pending (s : State) : s.holdExpired.pending = s.pending := by
  simp [State.holdExpired, State.drawEpoch, eachFlow_pending]

/-! ### What reaches the ports and intake (sections 6, 8 and 9) -/

@[simp] theorem answerAtIntake_pending (s : State) (origin : Origin) (frame : Frame) :
    (s.answerAtIntake origin frame).pending = s.pending := by
  unfold State.answerAtIntake
  split <;> simp [State.countIgnored]

@[simp] theorem admitRequest_pending (s : State) (r : Request) : (s.admitRequest r).pending = s.pending := by
  unfold State.admitRequest State.enqueue
  split
  · simp
  · split
    · simp
    · split_ifs <;> simp [State.countIgnored]

@[simp] theorem intake_pending (s : State) (origin : Origin) (v : FrameView) :
    (s.intake origin v).pending = s.pending := by
  unfold State.intake
  split
  · rfl
  · split <;> simp [State.countIgnored]

@[simp] theorem bulkPath_pending (s : State) (cls : PortClass) (frame : Frame) :
    (s.bulkPath cls frame).pending = s.pending := by
  unfold State.bulkPath
  split
  · split
    · next hu => simp [grantBulk_pending hu]
    · rfl
  · rfl

@[simp] theorem plainAction_pending (s : State) (action : PlainAction) (frame : Frame) :
    (s.plainAction action frame).pending = s.pending := by
  cases action <;> simp [State.plainAction]

@[simp] theorem acceptFrame_pending (s : State) (f : FlowId) (frame : Frame) :
    (s.acceptFrame f frame).pending = s.pending := by
  unfold State.acceptFrame
  split
  · next hu => simp [grantFlow_pending hu]
  · rfl

@[simp] theorem entryAction_pending (s : State) (e : ClassEntry) (frame : Frame) :
    (s.entryAction e frame).pending = s.pending := by
  unfold State.entryAction
  split
  · rfl
  · simp
  · unfold State.offerFrame
    split <;> simp

@[simp] theorem classifyFrame_pending (s : State) (v : FrameView) (frame : Frame) :
    (s.classifyFrame v frame).pending = s.pending := by
  unfold State.classifyFrame
  split <;> simp [State.countHit]

@[simp] theorem receiveFrame_pending (s : State) (received : List Byte) (bad : Bool) :
    (s.receiveFrame received bad).pending = s.pending := by
  unfold State.receiveFrame
  simp only
  split_ifs <;> simp

@[simp] theorem wireEnd_pending (s : State) (owner : WireOwner) : (s.wireEnd owner).pending = s.pending := by
  cases owner with
  | abandoned => rfl
  | account a => simp [State.wireEnd]
  | management =>
    simp only [State.wireEnd]
    split <;> simp

@[simp] theorem wireNext_pending (s : State) : s.wireNext.pending = s.pending := rfl

@[simp] theorem wireDown_pending (s : State) : s.wireDown.pending = s.pending := by
  unfold State.wireDown
  simp only
  split <;> simp

@[simp] theorem bulkGrantAt_pending (s : State) : s.bulkGrantAt.pending = s.pending := by
  unfold State.bulkGrantAt
  split
  · rfl
  · split
    · simp [State.bulkTaken]
    · split <;> simp [State.bulkTaken]

@[simp] theorem bulkAtPath_pending (s : State) (cls : PortClass) (frame : Frame) :
    (s.bulkAtPath cls frame).pending = s.pending := by
  unfold State.bulkAtPath
  simp only
  split
  · simp
  · split
    · next hu => simp [State.placeClass, grantBulk_pending hu]
    · rfl

@[simp] theorem linkEnd_pending (s : State) (owner : LinkOwner) : (s.linkEnd owner).pending = s.pending := by
  cases owner with
  | plain => rfl
  | bulkBuffer => simp [State.linkEnd]
  | restartLeave => simp [State.linkEnd, State.applyRestart]
  | linkReply =>
    simp only [State.linkEnd]
    split <;> simp

@[simp] theorem deliverBlock_pending (s : State) (received : List Byte) (bad : Bool) :
    (s.deliverBlock received bad).pending = s.pending := by
  unfold State.deliverBlock
  split
  · rfl
  · split <;> rfl

end Sys2Proof.Machine

namespace Sys2Proof.Machine

/-! ## The requests leave the waiting commands and the fuses alone (sections 7, 9 and 10) -/

theorem bodyless_pending {s : State} (r : Request) {work : Answer × State} (h : work.2.pending = s.pending) :
    (bodyless r s work).2.pending = s.pending := by
  unfold bodyless
  split
  · exact h
  · rfl

theorem withFlow_pending {s : State} (r : Request) {work : FlowId → Answer × State}
    (h : ∀ f, (work f).2.pending = s.pending) : (withFlow r s work).2.pending = s.pending := by
  unfold withFlow
  split
  · rfl
  · exact h _

theorem bindWork_pending (r : Request) (s : State) : (bindWork r s).2.pending = s.pending := by
  unfold bindWork bindWith
  simp only
  split
  · split
    · rfl
    · split <;> rfl
  · rfl

theorem readTableWork_pending (r : Request) (s : State) : (readTableWork r s).2.pending = s.pending := by
  unfold readTableWork
  simp only
  split
  · split <;> rfl
  · rfl

theorem writeTableWork_kept (r : Request) (s : State) :
    (writeTableWork r s).2.pending = s.pending ∧ (writeTableWork r s).2.unitId = s.unitId := by
  unfold writeTableWork writeShadow
  simp only
  split
  · split
    · split <;> exact ⟨rfl, rfl⟩
    · exact ⟨rfl, rfl⟩
  · exact ⟨rfl, rfl⟩

theorem copyBankWork_kept (r : Request) (s : State) :
    (copyBankWork r s).2.pending = s.pending ∧ (copyBankWork r s).2.unitId = s.unitId := by
  unfold copyBankWork bodyless
  split <;> exact ⟨rfl, rfl⟩

theorem commitWork_kept (r : Request) (s : State) :
    (commitWork r s).2.pending = s.pending ∧ (commitWork r s).2.unitId = s.unitId := by
  unfold commitWork commitBank
  split
  · split
    · exact ⟨rfl, rfl⟩
    · split
      · exact ⟨rfl, rfl⟩
      · split <;> exact ⟨rfl, rfl⟩
  · exact ⟨rfl, rfl⟩

theorem setParamsWork_kept (r : Request) (s : State) :
    (setParamsWork r s).2.pending = s.pending ∧ (setParamsWork r s).2.unitId = s.unitId := by
  unfold setParamsWork
  split
  · rcases setParamsWith_params s (byteAt r.body 0) (r.body.drop 1) with e | ⟨-, e⟩ <;> rw [e] <;> exact ⟨rfl, rfl⟩
  · exact ⟨rfl, rfl⟩

theorem flowOpenAt_pending (s : State) (f : FlowId) (tag : Tag) : (flowOpenAt s f tag).2.pending = s.pending := by
  unfold flowOpenAt
  split_ifs
  iterate 4 rfl
  split
  · rfl
  · next hu => simp [State.takeOpening, prepareOpening_pending hu]

theorem flowCloseAt_pending (s : State) (f : FlowId) (tag : Tag) : (flowCloseAt s f tag).2.pending = s.pending := by
  unfold flowCloseAt
  split
  · simp [State.startDrain]
  all_goals rfl

theorem flowAbortAt_pending (s : State) (f : FlowId) : (flowAbortAt s f).2.pending = s.pending := by
  simp only [flowAbortAt, State.abortFlow]
  split_ifs <;> simp

theorem flowResetAt_pending (s : State) (f : FlowId) : (flowResetAt s f).2.pending = s.pending := by
  unfold flowResetAt
  split <;> simp

theorem joinAt_pending (s : State) (tag : Tag) : (joinAt s tag).2.pending = s.pending := by
  unfold joinAt
  split <;> rfl

theorem linkLeaveWork_pending (r : Request) (s : State) : (linkLeaveWork r s).2.pending = s.pending := by
  refine bodyless_pending r ?_
  simp only
  split <;> simp

theorem readCountersWork_pending (r : Request) (s : State) : (readCountersWork r s).2.pending = s.pending := by
  have device : ∀ b clear, (readDeviceCounters s b clear).2.pending = s.pending := fun b clear => by
    cases clear <;> rfl
  have flow : ∀ f clear, (readFlowCounters s f clear).2.pending = s.pending := fun f clear => by
    cases clear <;> rfl
  unfold readCountersWork
  simp only
  split
  · split
    · exact device _ _
    · split
      · exact flow _ _
      · rfl
    · rfl
  · rfl

theorem setNoticesWork_pending (r : Request) (s : State) : (setNoticesWork r s).2.pending = s.pending := by
  unfold setNoticesWork
  simp only
  split <;> rfl

/-! ### The execution of a request (R156) -/

@[simp] theorem begin_pending (s : State) (r : Request) : (s.begin r).pending = s.pending := rfl

theorem executeRequest_pending {s : State} (r : Request) {work : Request → State → Answer × State}
    (hw : (work r s).2.pending = s.pending) : (s.executeRequest r work).pending = s.pending := by
  unfold State.executeRequest
  split
  · simp [State.refuseUnbound, State.respond]
  · simp [State.answerRequest, State.respond, hw]

@[simp] theorem executeRestart_pending (s : State) (r : Request) : (s.executeRestart r).pending = s.pending := by
  have hd : (s.executeRequest r restartWork).pending = s.pending := executeRequest_pending r (bodyless_pending r rfl)
  unfold State.executeRestart
  simp only
  split
  · rw [responseDeparted_pending, hd]
  · exact hd

theorem request_unitId {c : Instr} {s t : State} {named : Byte → Bool} {work : Request → State → Answer × State}
    (he : exec c s = s.execute named work) (hw : ∀ r u, (work r u).2.unitId = u.unitId) (e : exec c s = .next t) :
    t.unitId = s.unitId := by
  have of_config : ∀ {u v : State}, v.config = u.config → v.unitId = u.unitId := fun h => congrArg (·.2.2) h
  rw [he] at e
  unfold State.execute at e
  split at e
  · cases e; rfl
  · next r _ =>
    split at e
    · cases e
      rw [of_config (finish_config _), ← of_config (begin_config s r)]
      unfold State.executeRequest
      split
      · exact of_config (refuseUnbound_config _ r)
      · exact (of_config (answerRequest_config _ r _)).trans (hw r _)
    · cases e; rfl

/-- 0.6: no command changes the fused unit identifier. -/
theorem exec_unitId {c : Instr} {s t : State} (e : exec c s = .next t) : t.unitId = s.unitId := by
  cases hc : configures c with
  | false => exact congrArg (·.2.2) (exec_keepsConfig hc s t e)
  | true =>
    cases c with
    | powerOnReset => cases e; rfl
    | writeTable => exact request_unitId (exec_writeTable s) (fun r u => (writeTableWork_kept r u).2) e
    | copyBank => exact request_unitId (exec_copyBank s) (fun r u => (copyBankWork_kept r u).2) e
    | commit => exact request_unitId (exec_commit s) (fun r u => (commitWork_kept r u).2) e
    | setParams => exact request_unitId (exec_setParams s) (fun r u => (setParamsWork_kept r u).2) e
    | _ => cases hc

/-! ## Every command answers a next state -/

/-- The outcome is a next state, with the same commands waiting. -/
def Answers (s : State) (o : Host.Outcome State Fault Refusal) : Prop := ∃ t, o = .next t ∧ t.pending = s.pending

theorem answers_same (s : State) : Answers s (.next s) := ⟨s, rfl, rfl⟩

theorem answers_finish {s u : State} (h : u.pending = s.pending) : Answers s (.next u.finish) :=
  ⟨_, rfl, (finish_pending u).trans h⟩

theorem answers_ite {s u : State} {p : Prop} [Decidable p] (h : u.pending = s.pending) :
    Answers s (if p then .next u.finish else .next s) := by
  split
  · exact answers_finish h
  · exact answers_same s

theorem answers_request {c : Instr} {s : State} {named : Byte → Bool} {work : Request → State → Answer × State}
    (he : exec c s = s.execute named work) (hw : ∀ r u, (work r u).2.pending = u.pending) :
    Answers s (exec c s) := by
  rw [he]
  unfold State.execute
  split
  · exact answers_same s
  · next r _ => exact answers_ite (executeRequest_pending r (hw r _))

/-- Each command has its effect, or leaves the state as it is where its happening cannot occur (log entry 9). -/
theorem exec_answers (c : Instr) (s : State) : Answers s (exec c s) := by
  cases c with
  | powerOnReset => exact ⟨_, rfl, rfl⟩
  | wireFrameReception | linkBlockDelivery | slotSignalled | slotWithdrawn | wiredLinkUp | wiredLinkDown =>
    exact answers_finish (by simp)
  | helloReceived | keepaliveReceived | leaveReceived | openReceived | openAckReceived | closeReceived
  | closeAckReceived | abortReceived | dataReceived | advanceReceived | statusReceived | bulkReceived =>
    simp only [exec, execHelloReceived, execKeepaliveReceived, execLeaveReceived, execOpenReceived,
      execOpenAckReceived, execCloseReceived, execCloseAckReceived, execAbortReceived, execDataReceived,
      execAdvanceReceived, execStatusReceived, execBulkReceived, State.dropFlowBlock]
    split
    · exact answers_finish (by simp)
    · exact answers_same s
  | dataGrant | statusGrant | lifecycleGrant | partnershipGrant | bulkGrant =>
    simp only [exec, execDataGrant, execStatusGrant, execLifecycleGrant, execPartnershipGrant, execBulkGrant]
    split
    · exact answers_finish (by simp)
    · exact answers_same s
  | linkTransmissionEnd =>
    simp only [exec, execLinkTransmissionEnd]
    split
    · exact answers_finish (by simp)
    · exact answers_same s
    · exact answers_same s
  | wireTransmissionEnd =>
    simp only [exec, execWireTransmissionEnd]
    split
    · exact answers_finish (by simp)
    · exact answers_same s
  | retransmissionTimerExpiry | closeSeriesExpiry | openTimerExpiry | ackDelayTimerExpiry | joinTimerExpiry
  | helloTimerExpiry | silenceTimerExpiry | keepaliveTimerExpiry | holdTimerExpiry | leaseTimerExpiry =>
    exact answers_ite (by simp)
  | restart =>
    simp only [exec, Machine.execRestart]
    split
    · exact answers_same s
    · exact answers_ite (by simp)
  | identify => exact answers_request (exec_identify s) fun r _ => bodyless_pending r rfl
  | bind => exact answers_request (exec_bind s) bindWork_pending
  | unbind => exact answers_request (exec_unbind s) fun r _ => bodyless_pending r rfl
  | readTable => exact answers_request (exec_readTable s) readTableWork_pending
  | writeTable => exact answers_request (exec_writeTable s) fun r u => (writeTableWork_kept r u).1
  | copyBank => exact answers_request (exec_copyBank s) fun r u => (copyBankWork_kept r u).1
  | commit => exact answers_request (exec_commit s) fun r u => (commitWork_kept r u).1
  | flowOpen => exact answers_request (exec_flowOpen s) fun r u => withFlow_pending r fun f => flowOpenAt_pending u f _
  | flowClose =>
    exact answers_request (exec_flowClose s) fun r u => withFlow_pending r fun f => flowCloseAt_pending u f _
  | flowAbort => exact answers_request (exec_flowAbort s) fun r u => withFlow_pending r (flowAbortAt_pending u)
  | flowReset => exact answers_request (exec_flowReset s) fun r u => withFlow_pending r (flowResetAt_pending u)
  | flowStatus => exact answers_request (exec_flowStatus s) fun r _ => withFlow_pending r fun _ => rfl
  | linkJoin => exact answers_request (exec_linkJoin s) fun r u => bodyless_pending r (joinAt_pending u _)
  | linkLeave => exact answers_request (exec_linkLeave s) linkLeaveWork_pending
  | linkStatus => exact answers_request (exec_linkStatus s) fun r _ => bodyless_pending r rfl
  | readCounters => exact answers_request (exec_readCounters s) readCountersWork_pending
  | setParams => exact answers_request (exec_setParams s) fun r u => (setParamsWork_kept r u).1
  | readParams => exact answers_request (exec_readParams s) fun r _ => bodyless_pending r rfl
  | setNotices => exact answers_request (exec_setNotices s) setNoticesWork_pending
  | unknownRequest => exact answers_request (exec_unknownRequest s) fun _ _ => rfl

end Sys2Proof.Machine

section
open Sys2Proof Sys2Proof.Machine

/-- Settles O3: no arm faults or is refused, and no operation of an arm touches the waiting commands or the fuses. -/
theorem everyCommandCompletes : Obligations.EveryCommandCompletes := fun c s => by
  obtain ⟨t, e, hpending⟩ := exec_answers c s
  exact ⟨t, e, hpending, exec_unitId e⟩

/-- Settles O1. -/
theorem stepRunsFront : Obligations.StepRunsFront := fun c rest s => step_withPending_cons s c rest

end

namespace Sys2Proof.Machine

/-! ## The laws after power-on reset -/

/-- Nothing is queued or in transmission on the wire. -/
theorem reset_egressOf (a : Account) : State.reset.wire.egressOf a = 0 := by
  rw [egressOf_eq]
  exact congrArg₂ (· + ·) (initial_queuedOf .idle false a) rfl

theorem reset_buffersAccounted : State.reset.BuffersAccounted where
  slot h := by cases h
  flows f := by rw [reset_held, reset_flow, reset_egressOf]; rfl
  bulk := by rw [reset_egressOf]; rfl

theorem reset_entry (bank : BankId) (i : Fin 128) :
    readAt (State.reset.tables.bank bank).entries i = ClassEntry.initial := by
  cases bank <;> exact readAt_replicate _ i

theorem reset_configurationLaws : State.reset.ConfigurationLaws where
  profiles := (powerOn_windowLaws _ _ _).profiles
  ranges bank i := by
    rw [reset_entry]
    simp [ClassEntry.inRange, ClassEntry.initial]
  fallbacks bank i := by rw [reset_entry]; rfl
  noDangling i := by
    have he : readAt State.reset.tables.activeBank.entries i = ClassEntry.initial :=
      reset_entry State.reset.tables.active i
    simp [Bank.dangling, he, ClassEntry.initial]
  params := by unfold Params.sound; decide
  fuses := by decide

end Sys2Proof.Machine

section
open Sys2Proof Sys2Proof.Machine

/-- Settles O6: the pool is full, nothing is queued, in use or pending, and the station address is the fused unit
identifier (log entry 5). -/
theorem resetIsSound : Obligations.ResetIsSound :=
  ⟨poolLaws_of_initial rfl fun f => by rw [reset_flow]; rfl,
    reset_buffersAccounted,
    ⟨Nat.zero_le _, Nat.zero_le _, Nat.zero_le _, Nat.zero_le _, Nat.zero_le _, Nat.zero_le _⟩,
    powerOn_windowLaws _ _ _,
    powerOn_partnershipLaws _ _ _,
    lifecycleLaws_of_none rfl fun f => by rw [reset_flow]; rfl,
    State.noticeLaws_iff.2 (powerOn_noticesUnder ..),
    reset_configurationLaws⟩

end
